-- ==== Sys2Proof/Word.lean ====
section
/-! DEFINITION. The word types of the IPT block: a register is a 32-bit word (00_scope.md rules R4, R6), a command
is one 64-bit word (30_encoding.md rule R48). -/

namespace Sys2Proof

/-- The value of a register: an unsigned 32-bit word, bit 0 the least significant (rules R4, R6). -/
abbrev Word := BitVec 32

/-- A command word as the command port presents it: one word of 64 bits (rule R48). -/
abbrev CmdWord := BitVec 64

end Sys2Proof
end

