-- ==== Sys2Proof/Config.lean ====
section
/-! DEFINITION. The constants of the block: the parameters the source fixes (00_scope.md rule R4) and those it leaves
open for which the spec decides a default (rule R5). `TICKS_PER_MS` and the reset image, which the spec asks claims to
quantify over, are no constants here: they are the field `params` of `Machine.State`. -/

namespace Sys2Proof

/-- `IRQ_MAX`, the largest valid IRQ identifier (rule R4). -/
def Config.irqMax : Nat := 138

/-- `N_EN`, the number of enable registers (rule R4). -/
abbrev Config.nEn : Nat := 5

/-- `N_IPR`, the number of IRQ priority registers (rule R4). -/
abbrev Config.nIpr : Nat := 35

/-- `LINES_PER_EN`, IRQ lines per enable register (rule R4). -/
def Config.linesPerEn : Nat := 32

/-- `SRC_PER_PRI`, priority sources per priority register (rule R4). -/
def Config.srcPerPri : Nat := 4

/-- `LANE_W`, bits of one source's lane (rule R4). -/
def Config.laneW : Nat := 8

/-- `PRI_W`, significant bits of a priority value (rule R4). -/
abbrev Config.priW : Nat := 3

/-- `FIELD_OFS`, offset of the priority field inside its lane (rule R4). -/
def Config.fieldOfs : Nat := 5

/-- `CTRL_ENABLE_BIT` (rule R4). -/
def Config.ctrlEnableBit : Nat := 0

/-- `CTRL_INTEN_BIT` (rule R5; the spec's decision D10, log entry 11). -/
def Config.ctrlIntenBit : Nat := 1

/-- `CTRL_CLKSRC_BIT` (rule R5; the spec's decision D10, log entry 11). -/
def Config.ctrlClksrcBit : Nat := 2

/-- `CTRL_COUNT_BIT`. PRESUMED: the spec takes the position from general knowledge (D10, log entry 11). -/
def Config.ctrlCountBit : Nat := 16

/-- `CNT_W`, the width of the reload and current-count registers. PRESUMED: the spec takes 24 from general knowledge
(D11, log entry 12). -/
abbrev Config.cntW : Nat := 24

/-- `SHC_MEM_BIT`. PRESUMED: the spec takes the position from general knowledge (D9, log entry 10). -/
def Config.shcMemBit : Nat := 16

/-- `SHC_BUS_BIT`. PRESUMED: as `shcMemBit`. -/
def Config.shcBusBit : Nat := 17

/-- `SHC_USG_BIT`. PRESUMED: as `shcMemBit`. -/
def Config.shcUsgBit : Nat := 18

/-- The value of a count register: `CNT_W` bits (10_state.md rules R21, R22). -/
abbrev Count := BitVec Config.cntW

end Sys2Proof
end

