-- ==== Sys2Proof/Syntax.lean ====
section
/-! DEFINITION. The twenty commands of 30_encoding.md rule R52, one constructor per row of spec/opcode_table.json, and
the ten exception kinds of 60_exceptions.md rule R90. -/

namespace Sys2Proof

/-- A command (rule R52). Identifiers, kinds, selectors, priorities and durations are plain unsigned integers (rule
R51); `WellFormed.lean` holds them to their fields. A callback reference is a 32-bit word the block does not
interpret (10_state.md rule R23). -/
inductive Instr where
  /-- `ENIRQ id` (rule R59). -/
  | enirq (id : Nat)
  /-- `DISIRQ id` (rule R60). -/
  | disirq (id : Nat)
  /-- `SETIRQPRI id, pri` (rule R63). -/
  | setirqpri (id pri : Nat)
  /-- `GETIRQPRI id` (rule R64). -/
  | getirqpri (id : Nat)
  /-- `ENEXC kind` (rule R67). -/
  | enexc (kind : Nat)
  /-- `DISEXC kind` (rule R68). -/
  | disexc (kind : Nat)
  /-- `SETEXCPRI kind, pri` (rule R70). -/
  | setexcpri (kind pri : Nat)
  /-- `GETEXCPRI kind` (rule R71). -/
  | getexcpri (kind : Nat)
  /-- `TINIT dur` (rule R75). -/
  | tinit (dur : Nat)
  /-- `TDEINIT` (rule R76). -/
  | tdeinit
  /-- `TSTART` (rule R77). -/
  | tstart
  /-- `TSTOP` (rule R78). -/
  | tstop
  /-- `TBUSYWAIT dur` (rule R79). -/
  | tbusywait (dur : Nat)
  /-- `SETCB ref` (rule R83). -/
  | setcb (ref : Word)
  /-- `DISPATCH` (rule R84). -/
  | dispatch
  /-- `ENXCPT` (rule R85). -/
  | enxcpt
  /-- `DISXCPT` (rule R86). -/
  | disxcpt
  /-- `ENFAULT` (rule R87). -/
  | enfault
  /-- `DISFAULT` (rule R88). -/
  | disfault
  /-- `RDREG sel` (rule R89). -/
  | rdreg (sel : Nat)
deriving DecidableEq, Repr

/-- The ten CPU exception kinds, in the order of the source's list (rule R90). -/
inductive ExcKind where
  | reset
  | nmi
  | hardFault
  | memFault
  | busFault
  | usageFault
  | svCall
  | debugMonitor
  | pendSV
  | sysTick
deriving DecidableEq, Repr

end Sys2Proof
end

