-- ==== Sys2Proof/WellFormed.lean ====
section
/-! DEFINITION. When a command can be written down at all: every operand fits its field of the command word
(30_encoding.md rules R49, R51; an operand too large for its field is an assembly error, rule R55). A legal operand
need not be a meaningful one: id 200 or kind 12 is well formed, and its command is a no-op. -/

namespace Sys2Proof

/-- The operand fits the 8-bit field `A` or `B` (rules R49, R51). -/
def fitsByte (n : Nat) : Bool := decide (n < 256)

/-- The operand fits the 32-bit field `W` (rules R49, R51). -/
def fitsWord (n : Nat) : Bool := decide (n < 4294967296)

/-- Every operand fits its field. -/
def Instr.wellFormed : Instr → Bool
  | .enirq id => fitsByte id
  | .disirq id => fitsByte id
  | .setirqpri id pri => fitsByte id && fitsByte pri
  | .getirqpri id => fitsByte id
  | .enexc kind => fitsByte kind
  | .disexc kind => fitsByte kind
  | .setexcpri kind pri => fitsByte kind && fitsByte pri
  | .getexcpri kind => fitsByte kind
  | .tinit dur => fitsWord dur
  | .tdeinit => true
  | .tstart => true
  | .tstop => true
  | .tbusywait dur => fitsWord dur
  | .setcb _ => true
  | .dispatch => true
  | .enxcpt => true
  | .disxcpt => true
  | .enfault => true
  | .disfault => true
  | .rdreg sel => fitsByte sel

end Sys2Proof
end

