-- ==== Sys2Proof/Decode.lean ====
section
/-! DEFINITION. The command word (30_encoding.md rules R48 to R53): the decoder, total on every word and rejecting by
name; the encoder; and the opcode map as a table of rows with match and mask (rules R50, R52). -/

namespace Sys2Proof

/-- Why a word is illegal (rule R53). Either way the word is a no-op. -/
inductive Illegal where
  /-- `OP` is not in the map of rule R52. -/
  | unknownOpcode (op : Nat)
  /-- `OP` is in the map and a field its format does not use is not zero. -/
  | mustBeZero (op : Nat)
deriving DecidableEq, Repr

/-- The fields of a command word (rule R49). -/
structure Fields where
  op : BitVec 8
  a : BitVec 8
  b : BitVec 8
  z : BitVec 8
  w : Word
deriving DecidableEq, Repr

/-- `OP` = [63:56], `A` = [55:48], `B` = [47:40], `Z` = [39:32], `W` = [31:0] (rule R49). -/
def fieldsOf (c : CmdWord) : Fields :=
  { op := c.extractLsb' 56 8
    a := c.extractLsb' 48 8
    b := c.extractLsb' 40 8
    z := c.extractLsb' 32 8
    w := c.extractLsb' 0 32 }

/-- Format `Z0`: `A`, `B`, `Z` and `W` must be zero (rule R50). -/
def Fields.asZ0 (f : Fields) (i : Instr) : Except Illegal Instr :=
  if f.a = 0 ∧ f.b = 0 ∧ f.z = 0 ∧ f.w = 0 then .ok i else .error (.mustBeZero f.op.toNat)

/-- Format `A1`: `A` is the operand; `B`, `Z` and `W` must be zero (rule R50). -/
def Fields.asA1 (f : Fields) (mk : Nat → Instr) : Except Illegal Instr :=
  if f.b = 0 ∧ f.z = 0 ∧ f.w = 0 then .ok (mk f.a.toNat) else .error (.mustBeZero f.op.toNat)

/-- Format `AB`: `A` and `B` are the operands; `Z` and `W` must be zero (rule R50). -/
def Fields.asAB (f : Fields) (mk : Nat → Nat → Instr) : Except Illegal Instr :=
  if f.z = 0 ∧ f.w = 0 then .ok (mk f.a.toNat f.b.toNat) else .error (.mustBeZero f.op.toNat)

/-- Format `W1`: `W` is the operand; `A`, `B` and `Z` must be zero (rule R50). -/
def Fields.asW1 (f : Fields) (mk : Word → Instr) : Except Illegal Instr :=
  if f.a = 0 ∧ f.b = 0 ∧ f.z = 0 then .ok (mk f.w) else .error (.mustBeZero f.op.toNat)

/-- The opcode map (rule R52); an opcode outside it is illegal (rule R53). -/
def Fields.toInstr (f : Fields) : Except Illegal Instr :=
  match f.op.toNat with
  | 0x01 => f.asA1 .enirq
  | 0x02 => f.asA1 .disirq
  | 0x03 => f.asAB .setirqpri
  | 0x04 => f.asA1 .getirqpri
  | 0x05 => f.asA1 .enexc
  | 0x06 => f.asA1 .disexc
  | 0x07 => f.asAB .setexcpri
  | 0x08 => f.asA1 .getexcpri
  | 0x10 => f.asW1 (fun w => .tinit w.toNat)
  | 0x11 => f.asZ0 .tdeinit
  | 0x12 => f.asZ0 .tstart
  | 0x13 => f.asZ0 .tstop
  | 0x14 => f.asW1 (fun w => .tbusywait w.toNat)
  | 0x18 => f.asW1 .setcb
  | 0x19 => f.asZ0 .dispatch
  | 0x20 => f.asZ0 .enxcpt
  | 0x21 => f.asZ0 .disxcpt
  | 0x22 => f.asZ0 .enfault
  | 0x23 => f.asZ0 .disfault
  | 0x30 => f.asA1 .rdreg
  | op => .error (.unknownOpcode op)

/-- The decoder: one of the twenty commands, or illegal (rule R53). -/
def decode (c : CmdWord) : Except Illegal Instr := (fieldsOf c).toInstr

/-- The command word with the given fields and `Z` = 0; an operand is put into its field as it stands (rules R49,
R51). -/
def commandWord (op a b : Nat) (w : Word) : CmdWord :=
  BitVec.ofNat 8 op ++ BitVec.ofNat 8 a ++ BitVec.ofNat 8 b ++ 0#8 ++ w

/-- The word of a command (rules R49 to R52). -/
def encode : Instr → CmdWord
  | .enirq id => commandWord 0x01 id 0 0
  | .disirq id => commandWord 0x02 id 0 0
  | .setirqpri id pri => commandWord 0x03 id pri 0
  | .getirqpri id => commandWord 0x04 id 0 0
  | .enexc kind => commandWord 0x05 kind 0 0
  | .disexc kind => commandWord 0x06 kind 0 0
  | .setexcpri kind pri => commandWord 0x07 kind pri 0
  | .getexcpri kind => commandWord 0x08 kind 0 0
  | .tinit dur => commandWord 0x10 0 0 (BitVec.ofNat 32 dur)
  | .tdeinit => commandWord 0x11 0 0 0
  | .tstart => commandWord 0x12 0 0 0
  | .tstop => commandWord 0x13 0 0 0
  | .tbusywait dur => commandWord 0x14 0 0 (BitVec.ofNat 32 dur)
  | .setcb ref => commandWord 0x18 0 0 ref
  | .dispatch => commandWord 0x19 0 0 0
  | .enxcpt => commandWord 0x20 0 0 0
  | .disxcpt => commandWord 0x21 0 0 0
  | .enfault => commandWord 0x22 0 0 0
  | .disfault => commandWord 0x23 0 0 0
  | .rdreg sel => commandWord 0x30 sel 0 0

/-- The four formats (rule R50). -/
inductive Format where
  | z0
  | a1
  | ab
  | w1
deriving DecidableEq, Repr

/-- The bits of the word a format compares (the mask column of rule R50). -/
def Format.mask : Format → CmdWord
  | .z0 => 0xFFFFFFFFFFFFFFFF
  | .a1 => 0xFF00FFFFFFFFFFFF
  | .ab => 0xFF0000FFFFFFFFFF
  | .w1 => 0xFFFFFFFF00000000

/-- One row of the opcode map (rule R52). -/
structure OpcodeRow where
  mnemonic : String
  opcode : Nat
  format : Format
deriving DecidableEq, Repr

/-- `match(c) = opcode(c) << 56` (rule R50). -/
def OpcodeRow.matchBits (r : OpcodeRow) : CmdWord := BitVec.ofNat 64 r.opcode <<< 56

/-- The mask of the row's format (rule R50). -/
def OpcodeRow.mask (r : OpcodeRow) : CmdWord := r.format.mask

/-- The complete opcode map (rule R52). -/
def opcodeTable : List OpcodeRow :=
  [ ⟨"ENIRQ", 0x01, .a1⟩, ⟨"DISIRQ", 0x02, .a1⟩, ⟨"SETIRQPRI", 0x03, .ab⟩, ⟨"GETIRQPRI", 0x04, .a1⟩,
    ⟨"ENEXC", 0x05, .a1⟩, ⟨"DISEXC", 0x06, .a1⟩, ⟨"SETEXCPRI", 0x07, .ab⟩, ⟨"GETEXCPRI", 0x08, .a1⟩,
    ⟨"TINIT", 0x10, .w1⟩, ⟨"TDEINIT", 0x11, .z0⟩, ⟨"TSTART", 0x12, .z0⟩, ⟨"TSTOP", 0x13, .z0⟩,
    ⟨"TBUSYWAIT", 0x14, .w1⟩, ⟨"SETCB", 0x18, .w1⟩, ⟨"DISPATCH", 0x19, .z0⟩,
    ⟨"ENXCPT", 0x20, .z0⟩, ⟨"DISXCPT", 0x21, .z0⟩, ⟨"ENFAULT", 0x22, .z0⟩, ⟨"DISFAULT", 0x23, .z0⟩,
    ⟨"RDREG", 0x30, .a1⟩ ]

/-- The mnemonic of a command (rule R52). -/
def Instr.mnemonic : Instr → String
  | .enirq _ => "ENIRQ"
  | .disirq _ => "DISIRQ"
  | .setirqpri _ _ => "SETIRQPRI"
  | .getirqpri _ => "GETIRQPRI"
  | .enexc _ => "ENEXC"
  | .disexc _ => "DISEXC"
  | .setexcpri _ _ => "SETEXCPRI"
  | .getexcpri _ => "GETEXCPRI"
  | .tinit _ => "TINIT"
  | .tdeinit => "TDEINIT"
  | .tstart => "TSTART"
  | .tstop => "TSTOP"
  | .tbusywait _ => "TBUSYWAIT"
  | .setcb _ => "SETCB"
  | .dispatch => "DISPATCH"
  | .enxcpt => "ENXCPT"
  | .disxcpt => "DISXCPT"
  | .enfault => "ENFAULT"
  | .disfault => "DISFAULT"
  | .rdreg _ => "RDREG"

/-- The command word whose low `nbits` bits are those of `w` and whose other bits are zero. -/
def tableWord (nbits w : Nat) : CmdWord := BitVec.ofNat 64 (w % 2 ^ nbits)

/-- The command the decoder reads from a word numbered as spec/opcode_table.json numbers it; `none` where the word is
illegal. The block stores no command in memory: the 64-bit word itself goes to the decoder (rules R14, R48). -/
def decodeTableWord (nbits w : Nat) : Option Instr :=
  match decode (tableWord nbits w) with
  | .ok i => some i
  | .error _ => none

end Sys2Proof
end

