-- ==== Sys2Proof/Machine/State.lean ====
section
/-! DEFINITION. The state of the IPT block (10_state.md rules R12 to R31): every register, the hidden state, and the
model's own fields that make the inputs and outputs of the block plain data. Also why a step can stop. -/

namespace Sys2Proof.Machine

/-- `BW`, the busy-wait phase (rule R27). -/
inductive BusyWait where
  | idle
  | polling
deriving DecidableEq, Repr

/-- The timer control register (rule R20): exactly the four implemented bits. Every other bit reads as zero and
ignores writes, so it has no storage; `Tctrl.word` gives the 32-bit view. -/
structure Tctrl where
  enable : Bool
  inten : Bool
  clksrc : Bool
  count : Bool
deriving DecidableEq, Repr

/-- Who takes the next step: one of the three agents of rule R12, or a reset from outside the block (rule R107). -/
inductive Turn where
  /-- The command sequencer (rules R14, R80). -/
  | sequencer
  /-- One count event of the timer (rule R95). -/
  | tick
  /-- Delivery of the pending timer exception (rule R97). -/
  | deliver
  /-- A reset from outside the block (rule R107). -/
  | reset
deriving DecidableEq, Repr

/-- The output events (rule R11). -/
inductive Event where
  /-- The response of a reading command. -/
  | resp (v : Word)
  /-- The invocation of the callback with the reference `ref`. -/
  | invoke (ref : Word)
deriving DecidableEq, Repr

/-- `RESET_IMAGE`, `RESET_GIE` and `RESET_GFE`: what reset leaves where the source gives no value (rules R5, R31). -/
structure ResetImage where
  en : Vector Word Config.nEn
  ipr : Vector Word Config.nIpr
  shc : Word
  pri1 : Word
  pri2 : Word
  pri3 : Word
  gie : Bool
  gfe : Bool
deriving DecidableEq, Repr

/-- The parameters the spec asks claims to quantify over. No step changes them (rule R30). -/
structure Params where
  /-- `TICKS_PER_MS` (rule R5, OPEN). -/
  ticksPerMs : Nat
  /-- The reset image (rule R31). -/
  image : ResetImage
deriving DecidableEq, Repr

/-- The state of the block. -/
structure State where
  /-- `EN[0]` to `EN[4]` (rule R15); `DIS[0]` to `DIS[4]` are views of them (rule R16). -/
  en : Vector Word Config.nEn
  /-- `IPR[0]` to `IPR[34]` (rule R17). -/
  ipr : Vector Word Config.nIpr
  /-- `SHC` (rule R18). -/
  shc : Word
  /-- `PRI1` (rule R19). -/
  pri1 : Word
  /-- `PRI2` (rule R19). -/
  pri2 : Word
  /-- `PRI3` (rule R19). -/
  pri3 : Word
  /-- `TCTRL`, `COUNT` included (rules R20, R28). -/
  tctrl : Tctrl
  /-- `TRELOAD` (rule R21). -/
  treload : Count
  /-- `TCURRENT` (rule R22). -/
  tcurrent : Count
  /-- `CALLBACK`; 0 is the empty slot (rule R23). -/
  callback : Word
  /-- `GIE` (rule R24). -/
  gie : Bool
  /-- `GFE` (rule R25). -/
  gfe : Bool
  /-- `ST_PEND` (rule R26). -/
  stPend : Bool
  /-- `BW` (rule R27). -/
  bw : BusyWait
  /-- MODEL: the command words presented to the command port and not yet taken, oldest first (rules R14, R30). -/
  port : List CmdWord
  /-- MODEL: the schedule, the turns still to be taken, next first; when it is empty the command sequencer has the
  turn (rules R12, R30; log entry 1). -/
  turns : List Turn
  /-- MODEL: every event emitted so far, oldest first (rule R11; log entry 3). -/
  out : List Event
  /-- MODEL: the parameters, constant through every step (rules R5, R30; log entry 4). -/
  params : Params
deriving DecidableEq, Repr

/-- The block raises no fault: no command traps, faults or reports an error, whatever its operands (60_exceptions.md
rule R92), so there is no constructor. -/
inductive Fault where
deriving DecidableEq, Repr

/-- Why a step has no result. -/
inductive Refusal where
  /-- Raised by `exec` for an instruction that has no meaning yet. Safe: nothing is claimed of it. -/
  | notModelled (mnemonic : String)
  /-- Raised by `TINIT` and `TBUSYWAIT` when the reload value does not fit the count register (44_timer.md rule R74;
  93_implementation_defined.md U1, U2). Safe: the spec gives no result. -/
  | reloadNotRepresentable
  /-- Raised by `SETEXCPRI` for a kind with a priority field and a priority above 7 (43_exception_priority.md rule
  R70; 93_implementation_defined.md U3). Safe: the spec gives no result. -/
  | priorityAboveSeven
deriving DecidableEq, Repr

/-- The default reset image: `RESET_IMAGE` all zero, `RESET_GIE` = `RESET_GFE` = 1 (rules R5, R31). -/
def ResetImage.default : ResetImage :=
  { en := Vector.replicate Config.nEn 0
    ipr := Vector.replicate Config.nIpr 0
    shc := 0
    pri1 := 0
    pri2 := 0
    pri3 := 0
    gie := true
    gfe := true }

/-- The parameters of `State.reset`. DESIGN CHOICE: `TICKS_PER_MS` is open; 16000 is the spec's illustration and no
statement rests on it (log entry 4). -/
def Params.default : Params :=
  { ticksPerMs := 16000
    image := ResetImage.default }

/-- Every state element at the value of rule R31, for the reset image of `p`; no command presented, no turn
scheduled, no event emitted. -/
def State.powerOn (p : Params) : State :=
  { en := p.image.en
    ipr := p.image.ipr
    shc := p.image.shc
    pri1 := p.image.pri1
    pri2 := p.image.pri2
    pri3 := p.image.pri3
    tctrl := { enable := false, inten := false, clksrc := false, count := false }
    treload := 0
    tcurrent := 0
    callback := 0
    gie := p.image.gie
    gfe := p.image.gfe
    stPend := false
    bw := .idle
    port := []
    turns := []
    out := []
    params := p }

/-- The block right after reset, with the spec's defaults (rule R31). -/
def State.reset : State := State.powerOn Params.default

end Sys2Proof.Machine
end

