-- ==== Sys2Proof/Machine/Operands.lean ====
section
/-! DEFINITION. What the operands of the commands stand for: bits and priority fields of a register, the register and
bit of an identifier or an exception kind, the register of a selector, the reload value of a duration. -/

namespace Sys2Proof.Machine

/-- The word whose only one bit is bit `i`. -/
def bitMask (i : Nat) : Word := 1#32 <<< i

/-- `X[i] <- b` on the value of `X`: bit `i` replaced, the others kept (20_memory.md rule R36). -/
def setBit (w : Word) (i : Nat) (b : Bool) : Word :=
  if b then w ||| bitMask i else w &&& ~~~bitMask i

/-- `FieldMask(s)` (00_scope.md rule R8): always `7 << s` (43_exception_priority.md rule R72). -/
def fieldMask (s : Nat) : Word := 7#32 <<< s

/-- `FieldInsert(r, s, p3)` (rule R8). -/
def fieldInsert (r : Word) (s : Nat) (p : BitVec Config.priW) : Word :=
  (r &&& ~~~fieldMask s) ||| (p.setWidth 32 <<< s)

/-- `FieldExtract(r, s)` (rule R8). -/
def fieldExtract (r : Word) (s : Nat) : BitVec Config.priW := r.extractLsb' s Config.priW

/-- `IrqEnLocate(id)` (40_irq_enable.md rule R58): the enable register and the bit in it. -/
def irqEnLocate (id : Nat) : Nat × Nat := (id / Config.linesPerEn, id % Config.linesPerEn)

/-- `IrqPriLocate(id)` (41_irq_priority.md rule R62): the priority register and the shift of the field. -/
def irqPriLocate (id : Nat) : Nat × Nat :=
  (id / Config.srcPerPri, Config.laneW * (id % Config.srcPerPri) + Config.fieldOfs)

/-- The exception kind of a code (60_exceptions.md rule R90); codes from 10 up name no kind. -/
def ExcKind.ofCode : Nat → Option ExcKind
  | 0 => some .reset
  | 1 => some .nmi
  | 2 => some .hardFault
  | 3 => some .memFault
  | 4 => some .busFault
  | 5 => some .usageFault
  | 6 => some .svCall
  | 7 => some .debugMonitor
  | 8 => some .pendSV
  | 9 => some .sysTick
  | _ => none

/-- Where an exception's enable bit is (42_exception_enable.md rule R66). -/
inductive ExcEnable where
  /-- A bit of `SHC`. -/
  | shcBit (bit : Nat)
  /-- `TCTRL` bit `INTEN`. -/
  | timerInten
deriving DecidableEq, Repr

/-- The enable bit of a kind, for the four kinds that have one (rule R66). -/
def ExcKind.enable : ExcKind → Option ExcEnable
  | .memFault => some (.shcBit Config.shcMemBit)
  | .busFault => some (.shcBit Config.shcBusBit)
  | .usageFault => some (.shcBit Config.shcUsgBit)
  | .sysTick => some .timerInten
  | .reset => none
  | .nmi => none
  | .hardFault => none
  | .svCall => none
  | .debugMonitor => none
  | .pendSV => none

/-- `ExcEnLocate(kind)` (rule R66). -/
def excEnLocate (kind : Nat) : Option ExcEnable := (ExcKind.ofCode kind).bind ExcKind.enable

/-- The three exception priority registers (10_state.md rule R19). -/
inductive PriReg where
  | pri1
  | pri2
  | pri3
deriving DecidableEq, Repr

/-- The register and shift of a kind's priority field, for the seven kinds that have one: the fixed table of
43_exception_priority.md rule R69. -/
def ExcKind.priority : ExcKind → Option (PriReg × Nat)
  | .memFault => some (.pri1, 5)
  | .busFault => some (.pri1, 13)
  | .usageFault => some (.pri1, 21)
  | .svCall => some (.pri2, 29)
  | .debugMonitor => some (.pri3, 5)
  | .pendSV => some (.pri3, 21)
  | .sysTick => some (.pri3, 29)
  | .reset => none
  | .nmi => none
  | .hardFault => none

/-- `ExcPriLocate(kind)` (rule R69). -/
def excPriLocate (kind : Nat) : Option (PriReg × Nat) := (ExcKind.ofCode kind).bind ExcKind.priority

/-- What a register selector names (20_memory.md rule R34). -/
inductive Selector where
  | en (r : Nat)
  | dis (r : Nat)
  | ipr (r : Nat)
  | shc
  | pri (r : PriReg)
  | tctrl
  | treload
  | tcurrent
  | callback
  | status
  | unmapped
deriving DecidableEq, Repr

/-- The selector map (rule R34). -/
def selectorOf (sel : Nat) : Selector :=
  if sel ≤ 0x04 then .en sel
  else if 0x08 ≤ sel ∧ sel ≤ 0x0C then .dis (sel - 0x08)
  else if 0x10 ≤ sel ∧ sel ≤ 0x32 then .ipr (sel - 0x10)
  else if sel = 0x40 then .shc
  else if sel = 0x41 then .pri .pri1
  else if sel = 0x42 then .pri .pri2
  else if sel = 0x43 then .pri .pri3
  else if sel = 0x50 then .tctrl
  else if sel = 0x51 then .treload
  else if sel = 0x52 then .tcurrent
  else if sel = 0x60 then .callback
  else if sel = 0x61 then .status
  else .unmapped

/-- `ReloadValue(dur)` for `t` ticks per millisecond, in unbounded integers (44_timer.md rule R74). -/
def reloadValue (dur t : Nat) : Int := (dur : Int) * (t : Int) - 1

/-- `ReloadOk(dur)` for `t` ticks per millisecond (rule R74). -/
def reloadOk (dur t : Nat) : Bool := decide (1 ≤ dur * t ∧ dur * t ≤ 2 ^ Config.cntW)

/-- The reload value as the count register holds it; used only where `reloadOk` holds, and exact there. -/
def reloadCount (dur t : Nat) : Count := BitVec.ofInt Config.cntW (reloadValue dur t)

end Sys2Proof.Machine
end

