-- ==== Sys2Proof/Machine/Flags.lean ====
section
/-! DEFINITION. The timer control register and its one status flag `COUNT` (10_state.md rules R20, R28): the access
primitives of 20_memory.md rules R37 to R39, each with its side effect on the flag. -/

namespace Sys2Proof.Machine

/-- `TCTRL` as a 32-bit word: the four implemented bits at their places, zeros elsewhere (rules R20, R37). -/
def Tctrl.word (c : Tctrl) : Word :=
  setBit (setBit (setBit (setBit 0 Config.ctrlEnableBit c.enable) Config.ctrlIntenBit c.inten)
    Config.ctrlClksrcBit c.clksrc) Config.ctrlCountBit c.count

/-- `COUNT <- b`, by the hardware only: the flag is read-only to commands (rule R28). -/
def State.setCount (s : State) (b : Bool) : State := { s with tctrl := { s.tctrl with count := b } }

/-- `CtrlRead()`: the word with `COUNT` as it was, and the state in which the read has cleared it (rule R37). -/
def State.ctrlRead (s : State) : Word × State := (s.tctrl.word, s.setCount false)

/-- `CtrlWrite(v)`: the three writable bits from `v`; `COUNT` unchanged, the other bits of `v` ignored (rule R38). -/
def State.ctrlWrite (s : State) (v : Word) : State :=
  { s with tctrl :=
      { enable := v.getLsbD Config.ctrlEnableBit
        inten := v.getLsbD Config.ctrlIntenBit
        clksrc := v.getLsbD Config.ctrlClksrcBit
        count := s.tctrl.count } }

/-- `CurZero()`: `TCURRENT <- 0`, which also clears `COUNT` (rule R39). -/
def State.curZero (s : State) : State := { s with tcurrent := 0 }.setCount false

/-- The read-modify-write of one bit of `TCTRL`, as `TSTART`, `TSTOP`, `ENEXC 9` and `DISEXC 9` do it: the read half
clears `COUNT` (rules R36, R37). -/
def State.ctrlSetBit (s : State) (i : Nat) (b : Bool) : State :=
  s.ctrlRead.2.ctrlWrite (setBit s.ctrlRead.1 i b)

end Sys2Proof.Machine
end

