-- ==== Sys2Proof/Machine/Ops.lean ====
section
/-! DEFINITION. The shared operations: register reads and writes, the output views, events, the timer's register
sequences, the countdown, taking the timer exception, the poll, reset, and the taking of turns and command words. -/

namespace Sys2Proof.Machine

/-- The value of `EN[r]`; 0 where there is no such register. -/
def State.enAt (s : State) (r : Nat) : Word := s.en.getD r 0

/-- The value of `IPR[r]`; 0 where there is no such register. -/
def State.iprAt (s : State) (r : Nat) : Word := s.ipr.getD r 0

/-- The value of an exception priority register. -/
def State.priAt (s : State) : PriReg → Word
  | .pri1 => s.pri1
  | .pri2 => s.pri2
  | .pri3 => s.pri3

/-- `EN[r] <- v` (20_memory.md rule R36). -/
def State.setEn (s : State) (r : Nat) (v : Word) : State := { s with en := s.en.setIfInBounds r v }

/-- `IPR[r] <- v` (rule R36). -/
def State.setIpr (s : State) (r : Nat) (v : Word) : State := { s with ipr := s.ipr.setIfInBounds r v }

/-- `SHC <- v` (rule R36). -/
def State.setShc (s : State) (v : Word) : State := { s with shc := v }

/-- `PRI1 <- v`, `PRI2 <- v` or `PRI3 <- v` (rule R36). -/
def State.setPri (s : State) (r : PriReg) (v : Word) : State :=
  match r with
  | .pri1 => { s with pri1 := v }
  | .pri2 => { s with pri2 := v }
  | .pri3 => { s with pri3 := v }

/-- `TRELOAD <- v` (rule R36). -/
def State.setReload (s : State) (v : Count) : State := { s with treload := v }

/-- `emit` (00_scope.md rule R11). -/
def State.emit (s : State) (e : Event) : State := { s with out := s.out ++ [e] }

/-- The view `irq_en(id)` (10_state.md rule R29). -/
def State.irqEn (s : State) (id : Nat) : Bool := (s.enAt (irqEnLocate id).1).getLsbD (irqEnLocate id).2

/-- The view `irq_pri(id)` (rule R29). -/
def State.irqPri (s : State) (id : Nat) : BitVec Config.priW :=
  fieldExtract (s.iprAt (irqPriLocate id).1) (irqPriLocate id).2

/-- The view `exc_en(k)`, for the four kinds that have an enable bit (rule R29); it reads no register on the bus, so
`COUNT` stays. -/
def State.excEn (s : State) (kind : Nat) : Option Bool :=
  match excEnLocate kind with
  | some (.shcBit b) => some (s.shc.getLsbD b)
  | some .timerInten => some s.tctrl.inten
  | none => none

/-- The view `exc_pri(k)`, for the seven kinds that have a priority field (rule R29). -/
def State.excPri (s : State) (kind : Nat) : Option (BitVec Config.priW) :=
  match excPriLocate kind with
  | some (r, sh) => some (fieldExtract (s.priAt r) sh)
  | none => none

/-- Enable or disable one IRQ line: the one bit of the enable state, or nothing for an identifier above 138
(40_irq_enable.md rules R59, R60). -/
def State.setIrqEnable (s : State) (id : Nat) (b : Bool) : State :=
  if id ≤ Config.irqMax then
    s.setEn (irqEnLocate id).1 (setBit (s.enAt (irqEnLocate id).1) (irqEnLocate id).2 b)
  else s

/-- Enable or disable an exception kind: its bit of `SHC`, or `INTEN` by a read-modify-write of `TCTRL`, or nothing
for a kind with no enable bit (42_exception_enable.md rules R67, R68). -/
def State.setExcEnable (s : State) (kind : Nat) (b : Bool) : State :=
  match excEnLocate kind with
  | some (.shcBit i) => s.setShc (setBit s.shc i b)
  | some .timerInten => s.ctrlSetBit Config.ctrlIntenBit b
  | none => s

/-- `STATUS`: bit 0 `GIE`, bit 1 `GFE`, bit 2 `ST_PEND`, zeros above (20_memory.md rule R34). -/
def State.statusWord (s : State) : Word := setBit (setBit (setBit 0 0 s.gie) 1 s.gfe) 2 s.stPend

/-- The word a read by selector returns (rule R35). -/
def State.regWord (s : State) (sel : Nat) : Word :=
  match selectorOf sel with
  | .en r => s.enAt r
  | .dis r => s.enAt r
  | .ipr r => s.iprAt r
  | .shc => s.shc
  | .pri r => s.priAt r
  | .tctrl => s.ctrlRead.1
  | .treload => s.treload.setWidth 32
  | .tcurrent => s.tcurrent.setWidth 32
  | .callback => s.callback
  | .status => s.statusWord
  | .unmapped => 0

/-- The state after a read by selector: only the read of `TCTRL` has a side effect (rules R35, R43). -/
def State.afterRead (s : State) (sel : Nat) : State :=
  match selectorOf sel with
  | .tctrl => s.ctrlRead.2
  | _ => s

/-- `RegRead(sel)` (rule R35). -/
def State.regRead (s : State) (sel : Nat) : Word × State := (s.regWord sel, s.afterRead sel)

/-- The timer's arming sequence, shared by `TINIT` and the arming step of `TBUSYWAIT`: disable, zero the count, load
the reload register, write the control bits (44_timer.md rules R75, R79). -/
def State.armTimer (s : State) (reload : Count) (ctrl : Word) : State :=
  (((s.ctrlWrite 0).curZero).setReload reload).ctrlWrite ctrl

/-- The timer's return to its power-on state (rule R76). -/
def State.deinitTimer (s : State) : State := ((s.ctrlWrite 0).curZero).setReload 0

/-- The poll step of `TBUSYWAIT` (rule R80): one `CtrlRead()`, and `TDEINIT` when it saw `COUNT`. -/
def State.poll (s : State) : State :=
  if s.ctrlRead.1.getLsbD Config.ctrlCountBit then { s.ctrlRead.2.deinitTimer with bw := .idle }
  else s.ctrlRead.2

/-- The dispatch entry point: invoke the callback if there is one (45_callback.md rule R84). -/
def State.invokeCallback (s : State) : State :=
  if s.callback = 0 then s else s.emit (.invoke s.callback)

/-- `TICK`, one count event (60_exceptions.md rule R95): count, then flag, then pend. -/
def State.tick (s : State) : State :=
  if s.tctrl.enable = false then s
  else if s.tcurrent = 0 then { s with tcurrent := s.treload }
  else if s.tcurrent - 1 = 0 then
    { { s with tcurrent := s.tcurrent - 1 }.setCount true with stPend := s.stPend || s.tctrl.inten }
  else { s with tcurrent := s.tcurrent - 1 }

/-- Taking the timer exception: the pending bit is cleared and the callback is invoked; nothing is saved and no mask
or mode changes (rules R97, R99, R100). There is no return to model (rule R100). -/
def State.takeTimerException (s : State) : State := { s with stPend := false }.invokeCallback

/-- `DELIVER` is enabled exactly when `ST_PEND = 1` and `GIE = 1` (rule R97). -/
def State.deliverEnabled (s : State) : Bool := s.stPend && s.gie

/-- A turn of the `DELIVER` agent: its step where it is enabled; nothing where it is not (rule R97; log entry 2). -/
def State.deliver (s : State) : State := if s.deliverEnabled then s.takeTimerException else s

/-- Reset from outside (70_reset_and_hazards.md rule R107): every state element at its value of rule R31. What the
environment presents (commands, schedule) and what the block has emitted are no state elements and stay. -/
def State.resetEvent (s : State) : State :=
  { State.powerOn s.params with port := s.port, turns := s.turns, out := s.out }

/-- Whose turn is next; with nothing scheduled, the command sequencer's (log entry 1). -/
def State.nextTurn (s : State) : Turn := s.turns.headD .sequencer

/-- The state with the next turn taken from the schedule. -/
def State.takeTurn (s : State) : State := { s with turns := s.turns.tail }

/-- The state with the oldest command word taken from the port. -/
def State.takeCommand (s : State) : State := { s with port := s.port.tail }

end Sys2Proof.Machine
end

