-- ==== Sys2Proof/Machine/Callback.lean ====
section
/-! DEFINITION. `SETCB` and `DISPATCH` (45_callback.md). -/

namespace Sys2Proof.Machine

/-- `SETCB ref` (rule R83): all 32 bits in one step; 0 empties the slot. -/
def execSetcb (ref : Word) (s : State) : Host.Outcome State Fault Refusal :=
  .next { s with callback := ref }

/-- `DISPATCH` as a command (rules R54, R84): it neither needs nor clears `ST_PEND` and ignores `GIE`. -/
def execDispatch (s : State) : Host.Outcome State Fault Refusal := .next s.invokeCallback

end Sys2Proof.Machine
end

