-- ==== Sys2Proof/Machine/CpuMask.lean ====
section
/-! DEFINITION. `ENXCPT`, `DISXCPT`, `ENFAULT` and `DISFAULT` (46_cpu_mask.md). -/

namespace Sys2Proof.Machine

/-- `ENXCPT` (rule R85). -/
def execEnxcpt (s : State) : Host.Outcome State Fault Refusal := .next { s with gie := true }

/-- `DISXCPT` (rule R86). -/
def execDisxcpt (s : State) : Host.Outcome State Fault Refusal := .next { s with gie := false }

/-- `ENFAULT` (rule R87). -/
def execEnfault (s : State) : Host.Outcome State Fault Refusal := .next { s with gfe := true }

/-- `DISFAULT` (rule R88). -/
def execDisfault (s : State) : Host.Outcome State Fault Refusal := .next { s with gfe := false }

end Sys2Proof.Machine
end

