-- ==== Sys2Proof/Machine/ExceptionEnable.lean ====
section
/-! DEFINITION. `ENEXC` and `DISEXC` (42_exception_enable.md). -/

namespace Sys2Proof.Machine

/-- `ENEXC kind` (rule R67). -/
def execEnexc (kind : Nat) (s : State) : Host.Outcome State Fault Refusal :=
  .next (s.setExcEnable kind true)

/-- `DISEXC kind` (rule R68). -/
def execDisexc (kind : Nat) (s : State) : Host.Outcome State Fault Refusal :=
  .next (s.setExcEnable kind false)

end Sys2Proof.Machine
end

