-- ==== Sys2Proof/Machine/ExceptionPriority.lean ====
section
/-! DEFINITION. `SETEXCPRI` and `GETEXCPRI` (43_exception_priority.md). -/

namespace Sys2Proof.Machine

/-- `SETEXCPRI kind, pri` (rule R70): the kind test comes first; a priority above 7 for a kind with a field has no
result. -/
def execSetexcpri (kind pri : Nat) (s : State) : Host.Outcome State Fault Refusal :=
  match excPriLocate kind with
  | none => .next s
  | some (r, sh) =>
    if 7 < pri then .refused .priorityAboveSeven
    else .next (s.setPri r (fieldInsert (s.priAt r) sh (BitVec.ofNat Config.priW pri)))

/-- `GETEXCPRI kind` (rule R71): the response is 0 for a kind with no field. -/
def execGetexcpri (kind : Nat) (s : State) : Host.Outcome State Fault Refusal :=
  match s.excPri kind with
  | some p => .next (s.emit (.resp (p.setWidth 32)))
  | none => .next (s.emit (.resp 0))

end Sys2Proof.Machine
end

