-- ==== Sys2Proof/Machine/IrqEnable.lean ====
section
/-! DEFINITION. `ENIRQ` and `DISIRQ` (40_irq_enable.md). -/

namespace Sys2Proof.Machine

/-- `ENIRQ id` (rule R59). -/
def execEnirq (id : Nat) (s : State) : Host.Outcome State Fault Refusal :=
  .next (s.setIrqEnable id true)

/-- `DISIRQ id` (rule R60). -/
def execDisirq (id : Nat) (s : State) : Host.Outcome State Fault Refusal :=
  .next (s.setIrqEnable id false)

end Sys2Proof.Machine
end

