-- ==== Sys2Proof/Machine/IrqPriority.lean ====
section
/-! DEFINITION. `SETIRQPRI` and `GETIRQPRI` (41_irq_priority.md). -/

namespace Sys2Proof.Machine

/-- `SETIRQPRI id, pri` (rule R63): the low three bits of `pri` into the field of line `id`. -/
def execSetirqpri (id pri : Nat) (s : State) : Host.Outcome State Fault Refusal :=
  if id ≤ Config.irqMax then
    .next (s.setIpr (irqPriLocate id).1
      (fieldInsert (s.iprAt (irqPriLocate id).1) (irqPriLocate id).2 (BitVec.ofNat Config.priW pri)))
  else .next s

/-- `GETIRQPRI id` (rule R64): the response is 0 for an identifier with no field. -/
def execGetirqpri (id : Nat) (s : State) : Host.Outcome State Fault Refusal :=
  if id ≤ Config.irqMax then .next (s.emit (.resp ((s.irqPri id).setWidth 32)))
  else .next (s.emit (.resp 0))

end Sys2Proof.Machine
end

