-- ==== Sys2Proof/Machine/RegisterRead.lean ====
section
/-! DEFINITION. `RDREG` (47_register_read.md). -/

namespace Sys2Proof.Machine

/-- `RDREG sel` (rule R89): the response carries the word as it was before the read's side effect. -/
def execRdreg (sel : Nat) (s : State) : Host.Outcome State Fault Refusal :=
  .next ((s.regRead sel).2.emit (.resp (s.regRead sel).1))

end Sys2Proof.Machine
end

