-- ==== Sys2Proof/Machine/Timer.lean ====
section
/-! DEFINITION. `TINIT`, `TDEINIT`, `TSTART`, `TSTOP` and the arming step of `TBUSYWAIT` (44_timer.md); the poll step is
`State.poll`. -/

namespace Sys2Proof.Machine

/-- `TINIT dur` (rule R75). -/
def execTinit (dur : Nat) (s : State) : Host.Outcome State Fault Refusal :=
  if reloadOk dur s.params.ticksPerMs then
    .next { s.armTimer (reloadCount dur s.params.ticksPerMs) 0b111 with gie := true }
  else .refused .reloadNotRepresentable

/-- `TDEINIT` (rule R76). -/
def execTdeinit (s : State) : Host.Outcome State Fault Refusal := .next s.deinitTimer

/-- `TSTART` (rule R77). -/
def execTstart (s : State) : Host.Outcome State Fault Refusal :=
  .next (s.ctrlSetBit Config.ctrlEnableBit true)

/-- `TSTOP` (rule R78). -/
def execTstop (s : State) : Host.Outcome State Fault Refusal :=
  .next (s.ctrlSetBit Config.ctrlEnableBit false)

/-- `TBUSYWAIT dur`, the arming step (rule R79): `GIE` is not changed, and the command port closes. -/
def execTbusywait (dur : Nat) (s : State) : Host.Outcome State Fault Refusal :=
  if reloadOk dur s.params.ticksPerMs then
    .next { s.armTimer (reloadCount dur s.params.ticksPerMs) 0b101 with bw := .polling }
  else .refused .reloadNotRepresentable

end Sys2Proof.Machine
end

