-- ==== Sys2Proof/Machine/Dispatch.lean ====
section
/-! DEFINITION. The meaning of every command: one arm per row of the opcode map (30_encoding.md rule R52). -/

namespace Sys2Proof.Machine

/-- What a command does when the sequencer performs it. -/
def exec (i : Instr) (s : State) : Host.Outcome State Fault Refusal :=
  match i with
  | .enirq id => Sys2Proof.Machine.execEnirq id s
  | .disirq id => Sys2Proof.Machine.execDisirq id s
  | .setirqpri id pri => Sys2Proof.Machine.execSetirqpri id pri s
  | .getirqpri id => Sys2Proof.Machine.execGetirqpri id s
  | .enexc kind => Sys2Proof.Machine.execEnexc kind s
  | .disexc kind => Sys2Proof.Machine.execDisexc kind s
  | .setexcpri kind pri => Sys2Proof.Machine.execSetexcpri kind pri s
  | .getexcpri kind => Sys2Proof.Machine.execGetexcpri kind s
  | .tinit dur => Sys2Proof.Machine.execTinit dur s
  | .tdeinit => Sys2Proof.Machine.execTdeinit s
  | .tstart => Sys2Proof.Machine.execTstart s
  | .tstop => Sys2Proof.Machine.execTstop s
  | .tbusywait dur => Sys2Proof.Machine.execTbusywait dur s
  | .setcb ref => Sys2Proof.Machine.execSetcb ref s
  | .dispatch => Sys2Proof.Machine.execDispatch s
  | .enxcpt => Sys2Proof.Machine.execEnxcpt s
  | .disxcpt => Sys2Proof.Machine.execDisxcpt s
  | .enfault => Sys2Proof.Machine.execEnfault s
  | .disfault => Sys2Proof.Machine.execDisfault s
  | .rdreg sel => Sys2Proof.Machine.execRdreg sel s

end Sys2Proof.Machine
end

