-- ==== Sys2Proof/Machine/Sequencer.lean ====
section
/-! DEFINITION. The command sequencer (10_state.md rules R12, R14): it takes the next command word from the port and
performs it, or, while a busy-wait is polling, polls. -/

namespace Sys2Proof.Machine

/-- Perform one command word: an illegal word is a no-op (30_encoding.md rule R53). -/
def perform (w : CmdWord) (s : State) : Host.Outcome State Fault Refusal :=
  match decode w with
  | .ok i => exec i s
  | .error _ => .next s

/-- A turn of the command sequencer: the poll while `BW = POLLING` (44_timer.md rule R80); otherwise the next command
word, if one is presented (rules R12, R14). -/
def sequencerStep (s : State) : Host.Outcome State Fault Refusal :=
  match s.bw with
  | .polling => .next s.poll
  | .idle =>
    match s.port with
    | [] => .next s
    | w :: _ => perform w s.takeCommand

/-- One turn (rules R12, R107). -/
def turnStep (t : Turn) (s : State) : Host.Outcome State Fault Refusal :=
  match t with
  | .sequencer => sequencerStep s
  | .tick => .next s.tick
  | .deliver => .next s.deliver
  | .reset => .next s.resetEvent

/-- The state in which the command sequencer has the next turn, the port is open, and `w` is the next command word. -/
def State.present (s : State) (w : CmdWord) : State :=
  { s with bw := .idle, turns := .sequencer :: s.turns, port := w :: s.port }

end Sys2Proof.Machine
end

