-- ==== Sys2Proof/Machine/Step.lean ====
section
/-! DEFINITION. One step of the machine: one atomic step of whichever agent has the turn (10_state.md rule R12,
20_memory.md rule R44). -/

namespace Sys2Proof.Machine

/-- One atomic step: the next turn is taken from the schedule, and its agent steps. -/
def step (s : State) : Host.Outcome State Fault Refusal := turnStep s.nextTurn s.takeTurn

/-- `s` with a command word placed where the sequencer takes its next one: it heads the port, the port is open
(`BW = IDLE`), and the sequencer has the next turn. This stands for the environment presenting the command (log entry
5). -/
def State.withFetchWord (s : State) (nbits w : Nat) : State := s.present (tableWord nbits w)

end Sys2Proof.Machine
end

