-- ==== Sys2Proof/Safety.lean ====
section
/-! DEFINITION. What counts as a safe run and a good state, in the terms the claims use. -/

namespace Sys2Proof.Machine

/-- The run of `k` steps from `s` goes through: no step of it refuses (a claim about a run carries this, or the
preconditions that give it; 00_scope.md rule R10). -/
def State.SafeFor (s : State) (k : Nat) : Prop := ∃ t, Sys2Proof.core.run k s = .next t

/-- The bits of two words selected by a mask agree. -/
abbrev agreeOn (mask v w : Word) : Prop := v &&& mask = w &&& mask

/-- The register bits no command writes hold their reset values (10_state.md rules R15, R17, R18, R19, R32). -/
abbrev State.UnusedBitsKept (s : State) : Prop :=
  agreeOn 0xFFFFF800 (s.enAt 4) (s.params.image.en.getD 4 0) ∧
  (∀ r, r < 34 → agreeOn 0x1F1F1F1F (s.iprAt r) (s.params.image.ipr.getD r 0)) ∧
  agreeOn 0xFF1F1F1F (s.iprAt 34) (s.params.image.ipr.getD 34 0) ∧
  agreeOn 0xFFF8FFFF s.shc s.params.image.shc ∧
  agreeOn 0xFF1F1F1F s.pri1 s.params.image.pri1 ∧
  agreeOn 0x1FFFFFFF s.pri2 s.params.image.pri2 ∧
  agreeOn 0x1F1FFF1F s.pri3 s.params.image.pri3

/-- A polling busy-wait has the control bits its arming step wrote: `TCTRL[2:0] = 0b101` (rule R32). -/
abbrev State.PollingControl (s : State) : Prop :=
  s.bw = .polling → s.tctrl.enable = true ∧ s.tctrl.inten = false ∧ s.tctrl.clksrc = true

/-- The invariant of rule R32. Its bounds `TRELOAD < 2^CNT_W` and `TCURRENT < 2^CNT_W`, and the zero bits of `TCTRL`,
hold by the types of the fields. -/
abbrev State.Inv (s : State) : Prop :=
  s.tcurrent.toNat ≤ s.treload.toNat ∧ s.PollingControl ∧ s.UnusedBitsKept

/-- The command the next step performs, if it performs one: the sequencer has the turn, the port is open, and the word
at its head is legal (rules R12, R14, R53). -/
def State.nextCommand (s : State) : Option Instr :=
  match s.nextTurn, s.bw, s.port with
  | .sequencer, .idle, w :: _ =>
    match decode w with
    | .ok i => some i
    | .error _ => none
  | _, _, _ => none

/-- The next step is a poll of a busy-wait (rule R80). -/
def State.polls (s : State) : Bool := decide (s.nextTurn = .sequencer ∧ s.bw = .polling)

/-- The next step is an expiry: a count event that takes the count from 1 to 0 (rule R95). -/
def State.expires (s : State) : Bool :=
  decide (s.nextTurn = .tick ∧ s.tctrl.enable = true ∧ s.tcurrent = 1)

/-- The next step is a delivery of the timer exception (rule R97). -/
def State.delivers (s : State) : Bool :=
  decide (s.nextTurn = .deliver ∧ s.stPend = true ∧ s.gie = true)

/-- The commands that clear `COUNT`, by reading `TCTRL` or by zeroing `TCURRENT` (10_state.md rule R28). -/
def clearsCount : Instr → Bool
  | .tstart => true
  | .tstop => true
  | .enexc kind => decide (kind = 9)
  | .disexc kind => decide (kind = 9)
  | .rdreg sel => decide (sel = 0x50)
  | .tinit _ => true
  | .tdeinit => true
  | .tbusywait _ => true
  | .enirq _ => false
  | .disirq _ => false
  | .setirqpri _ _ => false
  | .getirqpri _ => false
  | .setexcpri _ _ => false
  | .getexcpri _ => false
  | .setcb _ => false
  | .dispatch => false
  | .enxcpt => false
  | .disxcpt => false
  | .enfault => false
  | .disfault => false

/-- The part of the state the timer's path from count to callback lives in: everything but the interrupt-controller
registers and `GFE`; of the events, the invocations (60_exceptions.md rules R94, R98). -/
structure TimerPath where
  tctrl : Tctrl
  treload : Count
  tcurrent : Count
  callback : Word
  gie : Bool
  stPend : Bool
  bw : BusyWait
  port : List CmdWord
  turns : List Turn
  invocations : List Event
  ticksPerMs : Nat
  resetGie : Bool
deriving DecidableEq, Repr

/-- The event is an invocation of the callback. -/
def Event.isInvoke : Event → Bool
  | .invoke _ => true
  | .resp _ => false

/-- The timer's path of a state. -/
def State.timerPath (s : State) : TimerPath :=
  { tctrl := s.tctrl
    treload := s.treload
    tcurrent := s.tcurrent
    callback := s.callback
    gie := s.gie
    stPend := s.stPend
    bw := s.bw
    port := s.port
    turns := s.turns
    invocations := s.out.filter Event.isInvoke
    ticksPerMs := s.params.ticksPerMs
    resetGie := s.params.image.gie }

end Sys2Proof.Machine
end

