-- ==== Sys2Proof/Certificates/Slice0/Obligations.lean ====
section
/-! DEFINITION. The statements about the IPT block, from the numbered rules of the spec. Where a statement rests on a
point the spec decides for itself (a decision D<n> of 92_eei_decisions.md) or the model chooses, its docstring says so
and names the log entry. A frame is written `{ t with x := s.x } = s`: every field of `t` but `x` is as in `s`, the
event log, the command port, the schedule and the parameters included. -/

open Sys2Proof Sys2Proof.Machine

/-! ### Command words (30_encoding.md) -/

/-- Words written out from the spec's own decoder vectors (95_test_vectors.md section 2.1) decode to the commands they
stand for, or are illegal by name. The encoding is the spec's decision D2 (log entry 7). -/
def Obligations.SampleWordsDecode : Prop :=
  decode 0x0125000000000000#64 = .ok (.enirq 37) ∧
  decode 0x028A000000000000#64 = .ok (.disirq 138) ∧
  decode 0x0389FF0000000000#64 = .ok (.setirqpri 137 255) ∧
  decode 0x0709020000000000#64 = .ok (.setexcpri 9 2) ∧
  decode 0x10000000FFFFFFFF#64 = .ok (.tinit 4294967295) ∧
  decode 0x1800000020000101#64 = .ok (.setcb 0x20000101#32) ∧
  decode 0x30FF000000000000#64 = .ok (.rdreg 255) ∧
  decode 0x0000000000000000#64 = .error (.unknownOpcode 0) ∧
  decode 0x0125010000000000#64 = .error (.mustBeZero 1) ∧
  decode 0x1201000000000000#64 = .error (.mustBeZero 0x12)

/-- Decode and encode agree: every command whose operands fit their fields is what its word decodes to (rules R49, R51,
R52; the encoding is the spec's decision D2, log entry 7). -/
def Obligations.DecodeOfEncode : Prop :=
  ∀ i : Instr, i.wellFormed = true → decode (encode i) = .ok i

/-- Every legal word is the word of the command it decodes to, and the operands of that command fit their fields: no
two words are one command (rules R50, R51; decisions D2, D3, log entry 7). -/
def Obligations.EncodeOfDecode : Prop :=
  ∀ (w : CmdWord) (i : Instr), decode w = .ok i → i.wellFormed = true ∧ encode i = w

/-- The decoder and the opcode table are the same: a word is a command of a row exactly when the bits the row's mask
selects are the row's match (rules R50, R52; decision D2, log entry 7). -/
def Obligations.DecodeFollowsOpcodeTable : Prop :=
  ∀ row ∈ opcodeTable, ∀ w : CmdWord,
    (w &&& row.mask = row.matchBits ↔ ∃ i, decode w = .ok i ∧ i.mnemonic = row.mnemonic)

/-- A word that matches no row of the opcode table is taken from the port and does nothing else (rule R53, decision
D4, log entry 8). The schedule is the model's (log entry 1). The table is decision D2 (log entry 7), the port is the
model's (log entry 5). -/
def Obligations.IllegalWordIsNoOp : Prop :=
  ∀ (s : State) (w : CmdWord) (rest : List CmdWord),
    s.nextTurn = .sequencer → s.bw = .idle → s.port = w :: rest →
    (∀ row ∈ opcodeTable, w &&& row.mask ≠ row.matchBits) →
    step s = .next { s with port := rest, turns := s.turns.tail }

/-! ### Steps and agents -/

/-- A step of the sequencer with an open port runs the command its oldest word decodes to, on the state with that word
and the turn taken (rules R12, R14; the port and the schedule are the model's, log entries 1 and 5). -/
def Obligations.StepRunsDecodedCommand : Prop :=
  ∀ (s : State) (w : CmdWord) (rest : List CmdWord) (i : Instr),
    s.nextTurn = .sequencer → s.bw = .idle → s.port = w :: rest → decode w = .ok i →
    step s = exec i { s with port := rest, turns := s.turns.tail }

/-- Every other step is that of the agent that has the turn: `TICK`, `DELIVER`, the reset event, and the poll of a
busy-wait (rules R12, R80, R95, R97, R107, decision D20, log entry 29; the schedule is the model's choice, log entry
1). That a turn of a sequencer with an open port and no word presented does nothing is the model's choice too (log
entry 2): rule R12 says only when the sequencer is enabled. -/
def Obligations.StepRunsAgentOfTurn : Prop :=
  ∀ s : State,
    (s.nextTurn = .tick → step s = .next { s with turns := s.turns.tail }.tick) ∧
    (s.nextTurn = .deliver → step s = .next { s with turns := s.turns.tail }.deliver) ∧
    (s.nextTurn = .reset → step s = .next { s with turns := s.turns.tail }.resetEvent) ∧
    (s.nextTurn = .sequencer → s.bw = .polling → step s = .next { s with turns := s.turns.tail }.poll) ∧
    (s.nextTurn = .sequencer → s.bw = .idle → s.port = [] →
      step s = .next { s with turns := s.turns.tail })

/-- A command word presented to the block is what its next step runs, whatever the state (the model's input convention,
log entry 5). -/
def Obligations.PresentedWordRunsNext : Prop :=
  ∀ (s : State) (nbits w : Nat) (i : Instr),
    decodeTableWord nbits w = some i → step (s.withFetchWord nbits w) = exec i { s with bw := .idle }

/-- Each step uses one turn and, where it performs a command or skips an illegal word, one command word; the rest of
both inputs stays in order, and no step changes the parameters (rules R14, R30; the model's input convention, log
entries 1, 4 and 5). -/
def Obligations.StepConsumesInputsInOrder : Prop :=
  ∀ s t : State, step s = .next t →
    t.turns = s.turns.tail ∧ t.params = s.params ∧
    t.port = if s.nextTurn = .sequencer ∧ s.bw = .idle then s.port.tail else s.port

/-- Only three commands can refuse, each on an operand value: `TINIT` and `TBUSYWAIT` exactly when the reload value is
not representable, `SETEXCPRI` exactly for a priority above 7 and a kind with a field. Every other command, with any
operands, in any state, has a next state (rules R10, R70, R74, R92; the refusals are the spec's decisions D8 and D21,
log entries 21 and 25). The bound `2 ^ 24` is `CNT_W` = 24, decision D11, from general knowledge (PRESUMED, log entry
12). -/
def Obligations.OnlyThreeCommandsRefuse : Prop :=
  ∀ (i : Instr) (s : State),
    match i with
    | .tinit dur =>
      if 1 ≤ dur * s.params.ticksPerMs ∧ dur * s.params.ticksPerMs ≤ 2 ^ 24 then ∃ t, exec i s = .next t
      else exec i s = .refused .reloadNotRepresentable
    | .tbusywait dur =>
      if 1 ≤ dur * s.params.ticksPerMs ∧ dur * s.params.ticksPerMs ≤ 2 ^ 24 then ∃ t, exec i s = .next t
      else exec i s = .refused .reloadNotRepresentable
    | .setexcpri kind pri =>
      if 3 ≤ kind ∧ kind ≤ 9 ∧ 7 < pri then exec i s = .refused .priorityAboveSeven
      else ∃ t, exec i s = .next t
    | _ => ∃ t, exec i s = .next t

/-! ### Fields and locators -/

/-- The field primitives at every shift a field can have: the mask selects the three bits, an insert followed by an
extract gives the value, changes no bit outside the mask, and a second insert overrides the first (rule R8, whose laws
the spec marks as derived from its definitions). -/
def Obligations.FieldPrimitiveLaws : Prop :=
  ∀ (r : Word) (s : Nat) (p q : BitVec 3), s ≤ 29 →
    (∀ j, j < 32 → (fieldMask s).getLsbD j = decide (s ≤ j ∧ j ≤ s + 2)) ∧
    (fieldExtract r s).toNat = r.toNat / 2 ^ s % 8 ∧
    fieldExtract (fieldInsert r s p) s = p ∧
    fieldInsert r s p &&& ~~~fieldMask s = r &&& ~~~fieldMask s ∧
    fieldInsert (fieldInsert r s p) s q = fieldInsert r s q

/-- `IrqEnLocate` (rule R58): register `id div 32`, bit `id mod 32`, within the five registers, one place per line; the
operand's bits [7:5] and [4:0]; and the identifiers 139 to 159 would land on bits 11 to 31 of `EN[4]`. -/
def Obligations.IrqEnableBitPlacement : Prop :=
  ∀ id : Nat,
    (id ≤ 138 →
      irqEnLocate id = (id / 32, id % 32) ∧ id / 32 ≤ 4 ∧ id % 32 ≤ 31 ∧ (id / 32 = 4 → id % 32 ≤ 10) ∧
      irqEnLocate id =
        (((BitVec.ofNat 8 id).extractLsb' 5 3).toNat, ((BitVec.ofNat 8 id).extractLsb' 0 5).toNat) ∧
      ∀ id', id' ≤ 138 → irqEnLocate id' = irqEnLocate id → id' = id) ∧
    (139 ≤ id → id ≤ 159 → id / 32 = 4 ∧ 11 ≤ id % 32 ∧ id % 32 ≤ 31)

/-- `IrqPriLocate` (rule R62): register `id div 4`, shift `8 * (id mod 4) + 5`, within the 35 registers, one field per
line, also read off the operand's bits. That lane `n` holds id `4r + n` is the spec's decision D6 (log entry 9). -/
def Obligations.IrqPriorityFieldPlacement : Prop :=
  ∀ id : Nat, id ≤ 138 →
    irqPriLocate id = (id / 4, 8 * (id % 4) + 5) ∧ id / 4 ≤ 34 ∧
    (8 * (id % 4) + 5 = 5 ∨ 8 * (id % 4) + 5 = 13 ∨ 8 * (id % 4) + 5 = 21 ∨ 8 * (id % 4) + 5 = 29) ∧
    irqPriLocate id =
      (((BitVec.ofNat 8 id).extractLsb' 2 6).toNat,
        ((BitVec.ofNat 8 id).extractLsb' 0 2 ++ 0b101#3).toNat) ∧
    ∀ id', id' ≤ 138 → irqPriLocate id' = irqPriLocate id → id' = id

/-- `ExcPriLocate` (rule R69): the fixed table of the seven prioritizable kinds, no field for any other kind, and no
two kinds with one field. -/
def Obligations.ExceptionPriorityTable : Prop :=
  excPriLocate 3 = some (.pri1, 5) ∧ excPriLocate 4 = some (.pri1, 13) ∧ excPriLocate 5 = some (.pri1, 21) ∧
  excPriLocate 6 = some (.pri2, 29) ∧ excPriLocate 7 = some (.pri3, 5) ∧ excPriLocate 8 = some (.pri3, 21) ∧
  excPriLocate 9 = some (.pri3, 29) ∧
  (∀ kind, kind ≤ 2 ∨ 10 ≤ kind → excPriLocate kind = none) ∧
  (∀ k k' p, excPriLocate k = some p → excPriLocate k' = some p → k = k') ∧
  fieldMask 5 = 0x000000E0#32 ∧ fieldMask 13 = 0x0000E000#32 ∧ fieldMask 21 = 0x00E00000#32 ∧
  fieldMask 29 = 0xE0000000#32

/-- `ExcEnLocate` (rule R66): the four kinds with an enable bit, and no other. The bit positions are the spec's
decisions D9 and D10 (log entries 10 and 11). -/
def Obligations.ExceptionEnableTable : Prop :=
  excEnLocate 3 = some (.shcBit 16) ∧ excEnLocate 4 = some (.shcBit 17) ∧ excEnLocate 5 = some (.shcBit 18) ∧
  excEnLocate 9 = some .timerInten ∧
  (∀ kind, kind ≠ 3 → kind ≠ 4 → kind ≠ 5 → kind ≠ 9 → excEnLocate kind = none)

/-! ### IRQ enable and disable (40_irq_enable.md) -/

/-- `ENIRQ id` (rule R59): its word; it sets bit `id mod 32` of `EN[id div 32]` for an `id` up to 138, changes no
other bit of the bank and nothing else, and for an `id` above 138 nothing at all. The command word is the spec's
decision D2 (log entry 7). -/
def Obligations.EnirqSetsItsLineOnly : Prop :=
  ∀ (id : Nat) (s : State),
    (id ≤ 255 → decode (commandWord 0x01 id 0 0) = .ok (.enirq id)) ∧
    (138 < id → exec (.enirq id) s = .next s) ∧
    ∃ t, exec (.enirq id) s = .next t ∧ { t with en := s.en } = s ∧
      ∀ r b, r < 5 → b < 32 → (t.enAt r).getLsbD b =
        if id ≤ 138 ∧ r = id / 32 ∧ b = id % 32 then true else (s.enAt r).getLsbD b

/-- `DISIRQ id` (rule R60): it clears exactly one bit of the enable state, or nothing for an `id` above 138. That the
disable bank is a port onto `EN` is the spec's decision D5 (log entry 13). The command word is the spec's decision D2
(log entry 7). -/
def Obligations.DisirqClearsItsLineOnly : Prop :=
  ∀ (id : Nat) (s : State),
    (id ≤ 255 → decode (commandWord 0x02 id 0 0) = .ok (.disirq id)) ∧
    (138 < id → exec (.disirq id) s = .next s) ∧
    ∃ t, exec (.disirq id) s = .next t ∧ { t with en := s.en } = s ∧
      ∀ r b, r < 5 → b < 32 → (t.enAt r).getLsbD b =
        if id ≤ 138 ∧ r = id / 32 ∧ b = id % 32 then false else (s.enAt r).getLsbD b

/-- The round trips of rule R61: enabling then disabling a disabled line, and disabling then enabling an enabled one,
give back the state exactly; and each command twice is the command once, for every identifier (derived by the spec from
rules R59 and R60, decision D5, log entry 13). -/
def Obligations.IrqEnableRoundTrip : Prop :=
  ∀ (id : Nat) (s : State),
    (id ≤ 138 → s.irqEn id = false →
      ∃ t, exec (.enirq id) s = .next t ∧ exec (.disirq id) t = .next s) ∧
    (id ≤ 138 → s.irqEn id = true →
      ∃ t, exec (.disirq id) s = .next t ∧ exec (.enirq id) t = .next s) ∧
    (∃ t, exec (.enirq id) s = .next t ∧ exec (.enirq id) t = .next t) ∧
    (∃ t, exec (.disirq id) s = .next t ∧ exec (.disirq id) t = .next t)

/-! ### IRQ priorities (41_irq_priority.md) -/

/-- `SETIRQPRI id, pri` (rule R63): the three field bits of the line become the low three bits of `pri`, every other
bit of every priority register and every other state element stays, and an `id` above 138 does nothing. The lane order
is the spec's decision D6 (log entry 9). The command word is the spec's decision D2 (log entry 7). -/
def Obligations.SetirqpriWritesItsFieldOnly : Prop :=
  ∀ (id pri : Nat) (s : State),
    (id ≤ 255 → pri ≤ 255 → decode (commandWord 0x03 id pri 0) = .ok (.setirqpri id pri)) ∧
    (138 < id → exec (.setirqpri id pri) s = .next s) ∧
    ∃ t, exec (.setirqpri id pri) s = .next t ∧ { t with ipr := s.ipr } = s ∧
      ∀ r b, r < 35 → b < 32 → (t.iprAt r).getLsbD b =
        if id ≤ 138 ∧ r = id / 4 ∧ 8 * (id % 4) + 5 ≤ b ∧ b ≤ 8 * (id % 4) + 7 then
          pri.testBit (b - (8 * (id % 4) + 5))
        else (s.iprAt r).getLsbD b

/-- `GETIRQPRI id` (rule R64): one response, the three field bits of the line as a number, 0 for an `id` above 138;
nothing else changes. The command and the response 0 are the spec's decision D7 (log entry 14), the lane order D6 (log
entry 9). The command word is the spec's decision D2 (log entry 7). -/
def Obligations.GetirqpriRespondsItsField : Prop :=
  ∀ (id : Nat) (s : State),
    (id ≤ 255 → decode (commandWord 0x04 id 0 0) = .ok (.getirqpri id)) ∧
    (id ≤ 138 → ∃ v : Word, v.toNat = (s.iprAt (id / 4)).toNat / 2 ^ (8 * (id % 4) + 5) % 8 ∧
      exec (.getirqpri id) s = .next { s with out := s.out ++ [.resp v] }) ∧
    (138 < id → exec (.getirqpri id) s = .next { s with out := s.out ++ [.resp 0] })

/-- Reading back an IRQ priority (rule R65, derived by the spec): after `SETIRQPRI id, pri`, `GETIRQPRI id` responds
`pri mod 8`, and the priority of every other line reads as before (lane order: decision D6, log entry 9). -/
def Obligations.IrqPriorityReadBack : Prop :=
  ∀ (id pri : Nat) (s : State), id ≤ 138 →
    ∃ t, exec (.setirqpri id pri) s = .next t ∧
      exec (.getirqpri id) t = .next { t with out := t.out ++ [.resp (BitVec.ofNat 32 (pri % 8))] } ∧
      ∀ id', id' ≤ 138 → id' ≠ id → ∃ v,
        exec (.getirqpri id') s = .next { s with out := s.out ++ [.resp v] } ∧
        exec (.getirqpri id') t = .next { t with out := t.out ++ [.resp v] }

/-! ### Exception enables (42_exception_enable.md) -/

/-- `ENEXC kind` (rule R67): kinds 3, 4, 5 set their bit of `SHC` and no other, kind 9 sets `INTEN` and clears
`COUNT`, every other kind does nothing. The bit positions are the spec's decisions D9 and D10 (log entries 10, 11),
the clearing of `COUNT` is D15 (log entry 16). The command word is the spec's decision D2 (log entry 7). -/
def Obligations.EnexcSetsItsEnableOnly : Prop :=
  ∀ (kind : Nat) (s : State),
    (kind ≤ 255 → decode (commandWord 0x05 kind 0 0) = .ok (.enexc kind)) ∧
    (3 ≤ kind → kind ≤ 5 → ∃ t, exec (.enexc kind) s = .next t ∧ { t with shc := s.shc } = s ∧
      ∀ b, b < 32 → t.shc.getLsbD b = if b = kind + 13 then true else s.shc.getLsbD b) ∧
    (kind = 9 → exec (.enexc kind) s = .next { s with tctrl := { s.tctrl with inten := true, count := false } }) ∧
    (kind ≤ 2 ∨ (6 ≤ kind ∧ kind ≤ 8) ∨ 10 ≤ kind → exec (.enexc kind) s = .next s)

/-- `DISEXC kind` (rule R68): as `ENEXC`, clearing; `ST_PEND` and `ENABLE` stay. Decisions D9, D10 and D15 (log
entries 10, 11, 16). The command word is the spec's decision D2 (log entry 7). -/
def Obligations.DisexcClearsItsEnableOnly : Prop :=
  ∀ (kind : Nat) (s : State),
    (kind ≤ 255 → decode (commandWord 0x06 kind 0 0) = .ok (.disexc kind)) ∧
    (3 ≤ kind → kind ≤ 5 → ∃ t, exec (.disexc kind) s = .next t ∧ { t with shc := s.shc } = s ∧
      ∀ b, b < 32 → t.shc.getLsbD b = if b = kind + 13 then false else s.shc.getLsbD b) ∧
    (kind = 9 → exec (.disexc kind) s = .next { s with tctrl := { s.tctrl with inten := false, count := false } }) ∧
    (kind ≤ 2 ∨ (6 ≤ kind ∧ kind ≤ 8) ∨ 10 ≤ kind → exec (.disexc kind) s = .next s)

/-- The output view `exc_en` (rule R29): for a kind with an enable bit it is 1 after `ENEXC` and 0 after `DISEXC`, and
the view of every other kind stays; a kind with no enable bit has no view. The views are the spec's decision D23
(log entry 24), the bit positions D9 and D10 (log entries 10, 11). -/
def Obligations.ExceptionEnableView : Prop :=
  ∀ (kind : Nat) (s : State),
    (excEnLocate kind ≠ none → ∃ t u,
      exec (.enexc kind) s = .next t ∧ t.excEn kind = some true ∧
      exec (.disexc kind) s = .next u ∧ u.excEn kind = some false ∧
      ∀ kind', kind' ≠ kind → t.excEn kind' = s.excEn kind' ∧ u.excEn kind' = s.excEn kind') ∧
    (excEnLocate kind = none → s.excEn kind = none)

/-! ### Exception priorities (43_exception_priority.md) -/

/-- `SETEXCPRI kind, pri` (rule R70): for a kind with a field and a priority up to 7 the three field bits become the
priority, and nothing else changes, neither in that register nor in the two others; with a priority above 7 the spec
gives no result (decision D8, log entry 21); a kind with no field does nothing, whatever the priority. The command
word is the spec's decision D2 (log entry 7). -/
def Obligations.SetexcpriWritesItsFieldOnly : Prop :=
  ∀ (kind pri : Nat) (s : State),
    (kind ≤ 255 → pri ≤ 255 → decode (commandWord 0x07 kind pri 0) = .ok (.setexcpri kind pri)) ∧
    (∀ R sh, excPriLocate kind = some (R, sh) → pri ≤ 7 →
      ∃ t, exec (.setexcpri kind pri) s = .next t ∧
        { t with pri1 := s.pri1, pri2 := s.pri2, pri3 := s.pri3 } = s ∧
        (∀ R', R' ≠ R → t.priAt R' = s.priAt R') ∧
        ∀ b, b < 32 → (t.priAt R).getLsbD b =
          if sh ≤ b ∧ b ≤ sh + 2 then pri.testBit (b - sh) else (s.priAt R).getLsbD b) ∧
    (∀ p, excPriLocate kind = some p → 7 < pri → exec (.setexcpri kind pri) s = .refused .priorityAboveSeven) ∧
    (excPriLocate kind = none → exec (.setexcpri kind pri) s = .next s)

/-- The mask that clears a field before the new value is or-ed in is `7 << s` for all seven rows (rule R72), so that
the defective masks of the reference code, at shifts 13 and 21, are not the block's. -/
def Obligations.UniformClearingMask : Prop :=
  ∀ (kind pri : Nat) (R : PriReg) (sh : Nat) (s : State), excPriLocate kind = some (R, sh) → pri ≤ 7 →
    ∃ t, exec (.setexcpri kind pri) s = .next t ∧
      t.priAt R = (s.priAt R &&& ~~~(7#32 <<< sh)) ||| (BitVec.ofNat 32 pri <<< sh)

/-- `GETEXCPRI kind` (rule R71): one response, the three field bits of the kind as a number, 0 for a kind with no
field; nothing else changes. The command and the response 0 are the spec's decision D7 (log entry 14). The command
word is the spec's decision D2 (log entry 7). -/
def Obligations.GetexcpriRespondsItsField : Prop :=
  ∀ (kind : Nat) (s : State),
    (kind ≤ 255 → decode (commandWord 0x08 kind 0 0) = .ok (.getexcpri kind)) ∧
    (∀ R sh, excPriLocate kind = some (R, sh) →
      ∃ v : Word, v.toNat = (s.priAt R).toNat / 2 ^ sh % 8 ∧
        exec (.getexcpri kind) s = .next { s with out := s.out ++ [.resp v] }) ∧
    (excPriLocate kind = none → exec (.getexcpri kind) s = .next { s with out := s.out ++ [.resp 0] })

/-- Reading back an exception priority (rule R73): after `SETEXCPRI kind, p` with a kind in 3..9 and `p` in 0..7,
`GETEXCPRI kind` responds `p` and every other kind responds what it did before. The command that reads is the spec's
decision D7 (log entry 14). -/
def Obligations.ExceptionPriorityReadBack : Prop :=
  ∀ (kind p : Nat) (s : State), 3 ≤ kind → kind ≤ 9 → p ≤ 7 →
    ∃ t, exec (.setexcpri kind p) s = .next t ∧
      exec (.getexcpri kind) t = .next { t with out := t.out ++ [.resp (BitVec.ofNat 32 p)] } ∧
      ∀ kind', kind' ≠ kind → ∃ v,
        exec (.getexcpri kind') s = .next { s with out := s.out ++ [.resp v] } ∧
        exec (.getexcpri kind') t = .next { t with out := t.out ++ [.resp v] }

/-! ### Timer commands (44_timer.md) -/

/-- `TINIT dur` (rule R75), for every number of ticks per millisecond: where the reload value is representable it
leaves `TCTRL` = 7, the count zero, the reload value exact and `GIE` set, and nothing else changed; where it is not,
the spec gives no result. The bound `2 ^ 24` is `CNT_W` = 24, decision D11, from general knowledge (PRESUMED, log
entry 12); the refusal, of the reload value -1 too, is decision D21 (log entry 25); that `COUNT` is clear afterwards
is decision D16, from general knowledge (PRESUMED, log entry 17); the word 7 is the layout of decision D10 (log entry
11), `GIE` is decision D18 (log entry 19), and the command word is decision D2 (log entry 7). -/
def Obligations.TinitArmsPeriodicTimer : Prop :=
  ∀ (dur : Nat) (s : State),
    (dur < 2 ^ 32 → decode (commandWord 0x10 0 0 (BitVec.ofNat 32 dur)) = .ok (.tinit dur)) ∧
    (1 ≤ dur * s.params.ticksPerMs → dur * s.params.ticksPerMs ≤ 2 ^ 24 →
      ∃ n : Count, n.toNat = dur * s.params.ticksPerMs - 1 ∧
        exec (.tinit dur) s = .next { s with
          tctrl := ⟨true, true, true, false⟩, tcurrent := 0, treload := n, gie := true }) ∧
    (¬(1 ≤ dur * s.params.ticksPerMs ∧ dur * s.params.ticksPerMs ≤ 2 ^ 24) →
      exec (.tinit dur) s = .refused .reloadNotRepresentable) ∧
    Tctrl.word ⟨true, true, true, false⟩ = 7#32

/-- `TINIT` enables exception delivery globally (rule R116): wherever it goes through it leaves `GIE` set, whatever
`GIE` was, and a `TDEINIT` after it does not undo that. The hypotheses are the range that is not refused, the spec's
decision D21 (log entry 25), with `CNT_W` = 24 of decision D11, from general knowledge (PRESUMED, log entry 12); the
bit `GIE` is decision D18 (log entry 19). -/
def Obligations.TinitUnmasksGlobally : Prop :=
  ∀ (dur : Nat) (s : State), 1 ≤ dur * s.params.ticksPerMs → dur * s.params.ticksPerMs ≤ 2 ^ 24 →
    ∃ t u, exec (.tinit dur) s = .next t ∧ t.gie = true ∧ exec .tdeinit t = .next u ∧ u.gie = true

/-- `TDEINIT` (rule R76): the three timer registers are zero, `COUNT` included, and nothing else is changed. The
command word is the spec's decision D2 (log entry 7). -/
def Obligations.TdeinitZeroesTimer : Prop :=
  decode (commandWord 0x11 0 0 0) = .ok .tdeinit ∧
  Tctrl.word ⟨false, false, false, false⟩ = 0#32 ∧
  ∀ s : State, exec .tdeinit s = .next { s with
    tctrl := ⟨false, false, false, false⟩, tcurrent := 0, treload := 0 }

/-- `TSTART` and `TSTOP` (rules R77, R78): `ENABLE` set or cleared, `COUNT` cleared by the read half (the spec's
decision D15, log entry 16), nothing else changed. The command word is the spec's decision D2 (log entry 7). -/
def Obligations.TstartTstopWriteEnableOnly : Prop :=
  decode (commandWord 0x12 0 0 0) = .ok .tstart ∧ decode (commandWord 0x13 0 0 0) = .ok .tstop ∧
  ∀ s : State,
    exec .tstart s = .next { s with tctrl := { s.tctrl with enable := true, count := false } } ∧
    exec .tstop s = .next { s with tctrl := { s.tctrl with enable := false, count := false } }

/-- `TBUSYWAIT dur`, the arming step (rule R79), for every number of ticks per millisecond: as `TINIT` without the
interrupt enable, `TCTRL` = 5, `GIE` unchanged (the spec's decision D19, log entry 20), and the port closes. The bound
`2 ^ 24` is `CNT_W` = 24, decision D11, from general knowledge (PRESUMED, log entry 12); the refusal, of the reload
value -1 too, is decision D21 (log entry 25); that `COUNT` is clear afterwards is decision D16, from general knowledge
(PRESUMED, log entry 17); the word 5 is the layout of decision D10 (log entry 11), and the command word is decision D2
(log entry 7). -/
def Obligations.TbusywaitArmsAndCloses : Prop :=
  ∀ (dur : Nat) (s : State),
    (dur < 2 ^ 32 → decode (commandWord 0x14 0 0 (BitVec.ofNat 32 dur)) = .ok (.tbusywait dur)) ∧
    (1 ≤ dur * s.params.ticksPerMs → dur * s.params.ticksPerMs ≤ 2 ^ 24 →
      ∃ n : Count, n.toNat = dur * s.params.ticksPerMs - 1 ∧
        exec (.tbusywait dur) s = .next { s with
          tctrl := ⟨true, false, true, false⟩, tcurrent := 0, treload := n, bw := .polling }) ∧
    (¬(1 ≤ dur * s.params.ticksPerMs ∧ dur * s.params.ticksPerMs ≤ 2 ^ 24) →
      exec (.tbusywait dur) s = .refused .reloadNotRepresentable) ∧
    Tctrl.word ⟨true, false, true, false⟩ = 5#32

/-- The poll step of `TBUSYWAIT` (rule R80): while the busy-wait polls, the sequencer's only step reads the flag; when
it sees it set the timer is deinitialised and the port opens, otherwise the state stays. No command is taken. The
schedule is the model's (log entry 1). -/
def Obligations.PollEndsWaitWhenFlagSeen : Prop :=
  ∀ s : State, s.nextTurn = .sequencer → s.bw = .polling →
    (s.tctrl.count = true → step s = .next { s with
      tctrl := ⟨false, false, false, false⟩, tcurrent := 0, treload := 0, bw := .idle, turns := s.turns.tail }) ∧
    (s.tctrl.count = false → step s = .next { s with turns := s.turns.tail })

/-- Pause and resume keep the count (rules R82 (b), R118, derived by the spec): after `TSTOP`, any number of count
events, and `TSTART`, the reload and current-count registers are as just before the `TSTOP`, and so is everything but
`ENABLE`, set, and `COUNT`, clear (decision D15, log entry 16). -/
def Obligations.StopStartKeepsCount : Prop :=
  ∀ (s : State) (k : Nat), ∃ t u,
    exec .tstop s = .next t ∧ exec .tstart (State.tick^[k] t) = .next u ∧
    u = { s with tctrl := { s.tctrl with enable := true, count := false } }

/-- A busy-wait ends (rule R81): armed with a reload value of at least 1, under any schedule of count events, polls
and deliveries, every step before the first poll that follows the `(reload + 1)`-th count event leaves it polling, and
that poll ends it with the three timer registers zero and the waiting commands untouched. Derived by the spec; the
count at zero is decision D13 (log entry 15), `COUNT` clear at arming is decision D16 (PRESUMED, log entry 17), the
polls are decision D19 (log entry 20), the range that arms is decision D21 (log entry 25), the schedule is the model's
(log entry 1). -/
def Obligations.BusyWaitEndsAfterItsTicks : Prop :=
  ∀ (s₀ s : State) (dur : Nat) (pre post rest : List Turn),
    exec (.tbusywait dur) s₀ = .next s → 2 ≤ dur * s₀.params.ticksPerMs →
    s₀.turns = pre ++ .tick :: (post ++ .sequencer :: rest) →
    .reset ∉ pre → pre.count .tick + 1 = dur * s₀.params.ticksPerMs →
    .reset ∉ post → .sequencer ∉ post →
    (∀ k, k ≤ pre.length + 1 + post.length →
      ∃ t, core.run k s = .next t ∧ t.bw = .polling ∧ t.port = s₀.port) ∧
    ∃ t, core.run (pre.length + 1 + post.length + 1) s = .next t ∧
      t.bw = .idle ∧ t.tctrl = ⟨false, false, false, false⟩ ∧ t.tcurrent = 0 ∧ t.treload = 0 ∧
      t.port = s₀.port ∧ t.turns = rest

/-- A busy-wait that never ends (rules R81, R111): with no reset scheduled, if no count event is scheduled either, or
if `dur * TICKS_PER_MS` is 1, the wait is still polling after any number of steps and has taken no command. Derived by
the spec; the count at zero is decision D13 (log entry 15), `COUNT` clear at arming is decision D16 (PRESUMED, log
entry 17), the polls are decision D19 (log entry 20), the range that arms is decision D21 (log entry 25), the schedule
is the model's (log entry 1). -/
def Obligations.BusyWaitCanHang : Prop :=
  ∀ (s₀ s : State) (dur : Nat), exec (.tbusywait dur) s₀ = .next s → .reset ∉ s₀.turns →
    (.tick ∉ s₀.turns ∨ dur * s₀.params.ticksPerMs = 1) →
    ∀ k, ∃ t, core.run k s = .next t ∧ t.bw = .polling ∧ t.port = s₀.port

/-! ### Callback, masks and register reads (45_callback.md, 46_cpu_mask.md, 47_register_read.md) -/

/-- `SETCB ref` (rule R83): all 32 bits of the slot are replaced and nothing else changes, no event included. That 0
is the empty reference is the spec's decision D28 (log entry 22). The command word is the spec's decision D2 (log
entry 7). -/
def Obligations.SetcbReplacesCallback : Prop :=
  ∀ (ref : Word) (s : State),
    decode (commandWord 0x18 0 0 ref) = .ok (.setcb ref) ∧
    exec (.setcb ref) s = .next { s with callback := ref }

/-- `DISPATCH` (rule R84): exactly one `Invoke` of the registered reference, or nothing when the slot is empty; no
state element changes, whatever `ST_PEND` and `GIE` are. Its place on the command port is the spec's decision D27, the
empty reference 0 is D28 (log entry 22). The command word is the spec's decision D2 (log entry 7). -/
def Obligations.DispatchInvokesCallbackOnce : Prop :=
  decode (commandWord 0x19 0 0 0) = .ok .dispatch ∧
  ∀ s : State,
    (s.callback ≠ 0 → exec .dispatch s = .next { s with out := s.out ++ [.invoke s.callback] }) ∧
    (s.callback = 0 → exec .dispatch s = .next s)

/-- `ENXCPT`, `DISXCPT`, `ENFAULT`, `DISFAULT` (rules R85 to R88): each writes one mask bit and nothing else. The bits
and their polarity are the spec's decision D18 (log entry 19). The command word is the spec's decision D2 (log entry
7). -/
def Obligations.MaskCommandsWriteOneBit : Prop :=
  decode (commandWord 0x20 0 0 0) = .ok .enxcpt ∧ decode (commandWord 0x21 0 0 0) = .ok .disxcpt ∧
  decode (commandWord 0x22 0 0 0) = .ok .enfault ∧ decode (commandWord 0x23 0 0 0) = .ok .disfault ∧
  ∀ s : State,
    exec .enxcpt s = .next { s with gie := true } ∧ exec .disxcpt s = .next { s with gie := false } ∧
    exec .enfault s = .next { s with gfe := true } ∧ exec .disfault s = .next { s with gfe := false }

/-- `RDREG sel` (rule R89): one response, the word of the selector as it is before the read; the state stays, but that
the read of `TCTRL` clears `COUNT`. The command is the spec's decision D7 (log entry 14). The command word is the
spec's decision D2 (log entry 7). That selector 0x50 is `TCTRL` is decision D24 (log entry 23). -/
def Obligations.RdregRespondsAndClearsCount : Prop :=
  ∀ (sel : Nat) (s : State),
    (sel ≤ 255 → decode (commandWord 0x30 sel 0 0) = .ok (.rdreg sel)) ∧
    (sel ≠ 0x50 → exec (.rdreg sel) s = .next { s with out := s.out ++ [.resp (s.regWord sel)] }) ∧
    (sel = 0x50 → exec (.rdreg sel) s = .next { s with
      tctrl := { s.tctrl with count := false }, out := s.out ++ [.resp (s.regWord sel)] })

/-- The selector map (rules R16, R34, R35): the word each selector reads; the disable bank reads as the enable bank,
narrow registers are zero-extended, and every unmapped selector reads 0. The numbers are the spec's decision D24, the
disable bank D5, the 0 D7 (log entries 13, 14, 23). The bits of the word of `TCTRL` are decision D10 (log entry 11):
`COUNT` at bit 16 is from general knowledge (PRESUMED), `INTEN` at bit 1 and `CLKSRC` at bit 2 are by the order of a
list (DEDUCED). The pending bit and the masks in the word of `STATUS` are decisions D17, D18 (log entries 18, 19). -/
def Obligations.SelectorMapReads : Prop :=
  ∀ s : State,
    (∀ r, r < 5 → s.regWord r = s.enAt r ∧ s.regWord (0x08 + r) = s.enAt r) ∧
    (∀ r, r < 35 → s.regWord (0x10 + r) = s.iprAt r) ∧
    s.regWord 0x40 = s.shc ∧ s.regWord 0x41 = s.pri1 ∧ s.regWord 0x42 = s.pri2 ∧ s.regWord 0x43 = s.pri3 ∧
    (∀ b, b < 32 → (s.regWord 0x50).getLsbD b =
      if b = 0 then s.tctrl.enable else if b = 1 then s.tctrl.inten else if b = 2 then s.tctrl.clksrc
      else if b = 16 then s.tctrl.count else false) ∧
    (s.regWord 0x51).toNat = s.treload.toNat ∧ (s.regWord 0x52).toNat = s.tcurrent.toNat ∧
    s.regWord 0x60 = s.callback ∧
    (∀ b, b < 32 → (s.regWord 0x61).getLsbD b =
      if b = 0 then s.gie else if b = 1 then s.gfe else if b = 2 then s.stPend else false) ∧
    (∀ sel, (0x05 ≤ sel ∧ sel ≤ 0x07) ∨ (0x0D ≤ sel ∧ sel ≤ 0x0F) ∨ (0x33 ≤ sel ∧ sel ≤ 0x3F) ∨
      (0x44 ≤ sel ∧ sel ≤ 0x4F) ∨ (0x53 ≤ sel ∧ sel ≤ 0x5F) ∨ 0x62 ≤ sel → s.regWord sel = 0)

/-- The access primitives of the timer (rules R37, R38, R39): the read returns the flag as it was and clears it, the
write takes bits 2 to 0 and leaves the flag, the zeroing of the count clears the flag. The layout is the spec's
decision D10, the last clearing D16 (log entries 11, 17). -/
def Obligations.TimerAccessPrimitives : Prop :=
  ∀ (s : State) (v : Word),
    s.ctrlRead.1.getLsbD 16 = s.tctrl.count ∧
    s.ctrlRead.1 &&& 0xFFFEFFF8#32 = 0 ∧
    s.ctrlRead.2 = { s with tctrl := { s.tctrl with count := false } } ∧
    s.ctrlWrite v = { s with tctrl := ⟨v.getLsbD 0, v.getLsbD 1, v.getLsbD 2, s.tctrl.count⟩ } ∧
    s.curZero = { s with tcurrent := 0, tctrl := { s.tctrl with count := false } }

/-! ### The countdown and delivery (60_exceptions.md) -/

/-- `TICK` (rule R95): nothing while disabled; a reload when the count is zero; the flag, and the pending bit if
`INTEN`, when the count goes from 1 to 0; otherwise one less. The behaviour at zero is the spec's decision D13, from
general knowledge (log entry 15). The pending bit is decision D17 (log entry 18). -/
def Obligations.TickCountsFlagsPends : Prop :=
  ∀ s : State,
    (s.tctrl.enable = false → s.tick = s) ∧
    (s.tctrl.enable = true → s.tcurrent = 0 → s.tick = { s with tcurrent := s.treload }) ∧
    (s.tctrl.enable = true → s.tcurrent = 1 → s.tick = { s with
      tcurrent := 0, tctrl := { s.tctrl with count := true },
      stPend := if s.tctrl.inten then true else s.stPend }) ∧
    (s.tctrl.enable = true → 2 ≤ s.tcurrent.toNat →
      ∃ n : Count, n.toNat = s.tcurrent.toNat - 1 ∧ s.tick = { s with tcurrent := n })

/-- The period of the timer (rule R96, derived by the spec; decision D13, log entry 15). Armed at count zero with a
reload value `N` of at least 1, after `k` count events the count is that of the sequence N, N-1, ..., 1, 0 repeated,
the flag is set from event `N + 1` on and, with `INTEN`, the exception pending; nothing else changes. With a reload
value of 0 nothing ever changes. Resumed at a count `c` of at least 1, the next expiry is `c` events away. The pending
bit is decision D17 (log entry 18). -/
def Obligations.TimerPeriodIsReloadPlusOne : Prop :=
  ∀ (s : State) (k : Nat), s.tctrl.enable = true →
    (s.tcurrent = 0 → 1 ≤ s.treload.toNat →
      (State.tick^[k] s).tcurrent.toNat =
        (if k % (s.treload.toNat + 1) = 0 then 0 else s.treload.toNat + 1 - k % (s.treload.toNat + 1)) ∧
      (State.tick^[k] s).tctrl = { s.tctrl with count := s.tctrl.count || decide (s.treload.toNat + 1 ≤ k) } ∧
      (State.tick^[k] s).stPend = (s.stPend || (s.tctrl.inten && decide (s.treload.toNat + 1 ≤ k))) ∧
      { State.tick^[k] s with tcurrent := s.tcurrent, tctrl := s.tctrl, stPend := s.stPend } = s) ∧
    (s.tcurrent = 0 → s.treload = 0 → State.tick^[k] s = s) ∧
    (k < s.tcurrent.toNat →
      (State.tick^[k] s).tcurrent.toNat = s.tcurrent.toNat - k ∧ (State.tick^[k] s).tctrl = s.tctrl ∧
      (State.tick^[k] s).stPend = s.stPend) ∧
    (1 ≤ k → k = s.tcurrent.toNat →
      (State.tick^[k] s).tcurrent = 0 ∧ (State.tick^[k] s).tctrl = { s.tctrl with count := true })

/-- `DELIVER` (rules R97, R99): enabled exactly when the exception is pending and not masked; it clears the pending
bit and invokes the callback if there is one, and changes nothing else: no mask, no timer register, no flag. The
pending bit and the agent are the spec's decision D17 (log entry 18); a turn of a `DELIVER` that is not enabled does
nothing (the model's choice, log entry 2). The mask `GIE` is decision D18 (log entry 19), the empty reference 0 is D28
(log entry 22). -/
def Obligations.DeliverTakesTimerException : Prop :=
  ∀ s : State,
    (s.stPend = true → s.gie = true → s.callback ≠ 0 →
      s.deliver = { s with stPend := false, out := s.out ++ [.invoke s.callback] }) ∧
    (s.stPend = true → s.gie = true → s.callback = 0 → s.deliver = { s with stPend := false }) ∧
    (s.stPend = false ∨ s.gie = false → s.deliver = s)

/-- Expiries before one delivery collapse into one `Invoke` (rules R98, R120; decision D17, log entry 18): after a
pending exception, any number of further count events, and two turns of `DELIVER`, exactly one `Invoke` has come out.
The mask `GIE` is decision D18 (log entry 19), the second turn of `DELIVER` does nothing by the model's choice (log
entry 2). -/
def Obligations.ExpiriesCoalesce : Prop :=
  ∀ (s : State) (k : Nat), s.stPend = true → s.gie = true → s.callback ≠ 0 →
    (State.tick^[k] s).stPend = true ∧
    (State.tick^[k] s).deliver.deliver.out = s.out ++ [.invoke s.callback] ∧
    (State.tick^[k] s).deliver.deliver.stPend = false

/-- The two orders of a delivery and a `SETCB` (rules R46, R110): a delivery before the `SETCB` invokes the old
reference, one after it the new one, and the state they end in is otherwise the same (decisions D17, D28, log entries
18, 22). The mask `GIE` is decision D18 (log entry 19). -/
def Obligations.CallbackRaceBothOrders : Prop :=
  ∀ (s : State) (ref : Word), s.stPend = true → s.gie = true → s.callback ≠ 0 → ref ≠ 0 →
    ∃ t u, exec (.setcb ref) s.deliver = .next t ∧ exec (.setcb ref) s = .next u ∧
      t.out = s.out ++ [.invoke s.callback] ∧ u.deliver.out = s.out ++ [.invoke ref] ∧
      { t with out := s.out } = { u.deliver with out := s.out }

/-! ### The life of each piece of state, over every step -/

/-- The life of the count flag (rule R28): after a step it is set exactly when the step was an expiry, or it was set
before and the step was no reset, no poll, and no command that reads `TCTRL` or zeroes `TCURRENT`. That the single-bit
updates clear it is the spec's decision D15, that zeroing the count does is D16 (log entries 16, 17). The schedule is
the model's (log entry 1). That an expiry is the tick that takes the count from 1 to 0 is decision D13, from general
knowledge (PRESUMED, log entry 15); that selector 0x50 is `TCTRL` is D24 (log entry 23); that every poll reads `TCTRL`
atomically is D19 (log entry 20). -/
def Obligations.CountFlagLifecycle : Prop :=
  ∀ s t : State, step s = .next t →
    (t.tctrl.count = true ↔
      s.expires = true ∨
      (s.tctrl.count = true ∧ s.nextTurn ≠ .reset ∧ s.polls = false ∧
        ∀ i, s.nextCommand = some i → clearsCount i = false))

/-- The life of the pending bit (rule R26, decision D17, log entry 18): set by an expiry with `INTEN`, cleared by a
delivery or a reset, and by no command. The schedule is the model's (log entry 1). That an expiry is the tick that
takes the count from 1 to 0 is decision D13, from general knowledge (PRESUMED, log entry 15); that a delivery needs
`GIE` is D18 (log entry 19); the reset value 0 is D22 (log entry 6). -/
def Obligations.PendingBitLifecycle : Prop :=
  ∀ s t : State, step s = .next t →
    (t.stPend = true ↔
      (s.expires = true ∧ s.tctrl.inten = true) ∨
      (s.stPend = true ∧ s.delivers = false ∧ s.nextTurn ≠ .reset))

/-- The busy-wait phase (rule R27, decision D19, log entry 20): after a step it is polling exactly when the step armed
a busy-wait, or it was polling before and the step was neither a reset nor a poll that saw the flag. The schedule is
the model's (log entry 1). -/
def Obligations.BusyWaitLifecycle : Prop :=
  ∀ s t : State, step s = .next t →
    (t.bw = .polling ↔
      (∃ dur, s.nextCommand = some (.tbusywait dur)) ∨
      (s.bw = .polling ∧ s.nextTurn ≠ .reset ∧ ¬(s.polls = true ∧ s.tctrl.count = true)))

/-- Who writes the callback slot and the two masks (rules R23, R24, R25, R116; decision D18, log entry 19): over every
step each has the value the next command gives it, the reset value after a reset, and otherwise its old value. The
schedule is the model's (log entry 1). The reset values of the masks are decision D22 (log entry 6). -/
def Obligations.CallbackAndMaskWriters : Prop :=
  ∀ s t : State, step s = .next t →
    t.callback = (if s.nextTurn = .reset then 0 else
      match s.nextCommand with
      | some (.setcb ref) => ref
      | _ => s.callback) ∧
    t.gie = (if s.nextTurn = .reset then s.params.image.gie else
      match s.nextCommand with
      | some .enxcpt => true
      | some (.tinit _) => true
      | some .disxcpt => false
      | _ => s.gie) ∧
    t.gfe = (if s.nextTurn = .reset then s.params.image.gfe else
      match s.nextCommand with
      | some .enfault => true
      | some .disfault => false
      | _ => s.gfe)

/-- Who writes the interrupt-controller registers (rules R15, R17, R18, R19): over every step but a reset, the enable
bank changes only by `ENIRQ` and `DISIRQ`, the IRQ priorities only by `SETIRQPRI`, `SHC` only by `ENEXC` and `DISEXC`,
the exception priorities only by `SETEXCPRI`. The schedule is the model's (log entry 1). -/
def Obligations.ControllerRegisterWriters : Prop :=
  ∀ s t : State, step s = .next t → s.nextTurn ≠ .reset →
    (t.en = s.en ∨ ∃ id, s.nextCommand = some (.enirq id) ∨ s.nextCommand = some (.disirq id)) ∧
    (t.ipr = s.ipr ∨ ∃ id pri, s.nextCommand = some (.setirqpri id pri)) ∧
    (t.shc = s.shc ∨ ∃ kind, s.nextCommand = some (.enexc kind) ∨ s.nextCommand = some (.disexc kind)) ∧
    ((t.pri1 = s.pri1 ∧ t.pri2 = s.pri2 ∧ t.pri3 = s.pri3) ∨
      ∃ kind pri, s.nextCommand = some (.setexcpri kind pri))

/-- Who writes the timer registers (rules R20, R21, R22, R102): over every step but a reset, the reload register
changes only by the three arming commands and the end of a busy-wait, the current count by those and count events, and
each control bit only by the commands that write it. Decisions D10, D14 (log entries 11, 15). The schedule is the
model's (log entry 1). -/
def Obligations.TimerRegisterWriters : Prop :=
  ∀ s t : State, step s = .next t → s.nextTurn ≠ .reset → s.polls = false →
    (∀ dur, s.nextCommand ≠ some (.tinit dur) ∧ s.nextCommand ≠ some (.tbusywait dur)) →
    s.nextCommand ≠ some .tdeinit →
    t.treload = s.treload ∧
    (t.tcurrent = s.tcurrent ∨ (s.nextTurn = .tick ∧ s.tctrl.enable = true)) ∧
    t.tctrl.enable = (if s.nextCommand = some .tstart then true
      else if s.nextCommand = some .tstop then false else s.tctrl.enable) ∧
    t.tctrl.inten = (if s.nextCommand = some (.enexc 9) then true
      else if s.nextCommand = some (.disexc 9) then false else s.tctrl.inten) ∧
    t.tctrl.clksrc = s.tctrl.clksrc

/-- What comes out of a step (rule R11; decisions D7, D28, log entries 14, 22): one response of each reading command,
one invocation of a `DISPATCH` or a delivery when a callback is registered, and nothing else; the earlier events stay
(the model's log of events, log entry 3). The schedule is the model's (log entry 1). That a delivery needs `ST_PEND`
and `GIE` is decisions D17 and D18 (log entries 18, 19). -/
def Obligations.EventsOfAStep : Prop :=
  ∀ s t : State, step s = .next t →
    if s.delivers = true ∨ s.nextCommand = some .dispatch then
      t.out = (if s.callback = 0 then s.out else s.out ++ [.invoke s.callback])
    else
      match s.nextCommand with
      | some (.getirqpri _) => ∃ v, t.out = s.out ++ [.resp v]
      | some (.getexcpri _) => ∃ v, t.out = s.out ++ [.resp v]
      | some (.rdreg _) => ∃ v, t.out = s.out ++ [.resp v]
      | _ => t.out = s.out

/-! ### Whole-machine results -/

/-- The invariant of rule R32 holds after power-on, for every reset image and every number of ticks per millisecond
(rule R31; decision D22, log entry 6). -/
def Obligations.PowerOnHasInvariant : Prop :=
  State.reset.Inv ∧ ∀ p : Params, (State.powerOn p).Inv

/-- Every step keeps the invariant of rule R32, from every state that has it: the count never exceeds the reload
value, a polling busy-wait has the control bits it armed, and the register bits no command writes hold their reset
values (derived by the spec). The schedule is the model's (log entry 1). The control bits of a busy-wait are decision
D19 (log entry 20); that unused bits are plain storage is decision D32 (log entry 26), and which bits of `SHC` and of
a lane are used is decisions D9 and D6 (log entries 10, 9). -/
def Obligations.StepKeepsInvariant : Prop :=
  ∀ s t : State, s.Inv → step s = .next t → t.Inv

/-- What reset leaves (rules R31, R107): the timer stopped with its registers zero, no callback, nothing pending, the
port open, the controller registers and masks at the reset image, from any state, a polling one included. The image is
the spec's decision D22 (log entry 6); that the presented commands, the schedule and the events already out stay is
the model's choice (log entry 5). The schedule is the model's (log entry 1). -/
def Obligations.ResetLeavesPowerOnState : Prop :=
  ∀ s : State, s.nextTurn = .reset →
    step s = .next
      { en := s.params.image.en, ipr := s.params.image.ipr, shc := s.params.image.shc, pri1 := s.params.image.pri1,
        pri2 := s.params.image.pri2, pri3 := s.params.image.pri3, tctrl := ⟨false, false, false, false⟩,
        treload := 0, tcurrent := 0, callback := 0, gie := s.params.image.gie, gfe := s.params.image.gfe,
        stPend := false, bw := .idle, port := s.port, turns := s.turns.tail, out := s.out, params := s.params }

/-- The registers right after reset with the spec's default image (rule R31; the controller registers and the masks are
its decision D22, log entry 6): every register is zero, both masks are open, nothing is pending and the port is open. -/
def Obligations.ResetRegisterValues : Prop :=
  (∀ r, State.reset.enAt r = 0) ∧ (∀ r, State.reset.iprAt r = 0) ∧ State.reset.shc = 0 ∧
  (∀ R, State.reset.priAt R = 0) ∧ State.reset.tctrl.word = 0 ∧ State.reset.treload = 0 ∧
  State.reset.tcurrent = 0 ∧ State.reset.callback = 0 ∧ State.reset.gie = true ∧ State.reset.gfe = true ∧
  State.reset.stPend = false ∧ State.reset.bw = .idle

/-- The stored priorities, the enables of the IRQ lines and faults, and `GFE` take no part in the timer's path (rules
R94, R98; decision D23, log entry 24): two states that agree on that path step alike on it, to the same refusal or to
states that agree on it, the invocations emitted included. The schedule is the model's (log entry 1). That `GFE` takes
no part is decision D18 (log entry 19): rules R25 and R88 give it no reader; on a processor whose fault mask affects
the timer exception it would not hold. -/
def Obligations.TimerPathIgnoresPriorities : Prop :=
  ∀ s s' : State, s.timerPath = s'.timerPath →
    match step s, step s' with
    | .next t, .next t' => t.timerPath = t'.timerPath
    | .refused r, .refused r' => r = r'
    | _, _ => False
end

