-- ==== Sys2Proof/Laws/Bits.lean ====
section
/-! SUPPORT. What the bit and field operations do to each bit, and what the words of `TCTRL` and `STATUS` hold. -/

namespace Sys2Proof.Machine

/-- Bit `j` of a one-bit mask. -/
@[simp] theorem bitMask_getLsbD (i j : Nat) : (bitMask i).getLsbD j = decide (j = i ∧ j < 32) := by
  simp only [bitMask, BitVec.getLsbD_shiftLeft, BitVec.getLsbD_one]
  by_cases hj : j < 32 <;> by_cases hi : j < i <;> simp [hj, hi] <;> omega

/-- A bit write changes the addressed bit and no other. -/
@[simp] theorem setBit_getLsbD (w : Word) (i : Nat) (b : Bool) (j : Nat) :
    (setBit w i b).getLsbD j = if j = i ∧ j < 32 then b else w.getLsbD j := by
  have hge : ¬j < 32 → w.getLsbD j = false := fun hj => BitVec.getLsbD_of_ge w j (by omega)
  cases b <;>
    simp only [setBit, Bool.false_eq_true, if_true, if_false, BitVec.getLsbD_or, BitVec.getLsbD_and,
      BitVec.getLsbD_not, bitMask_getLsbD]
  all_goals by_cases hj : j < 32 <;> by_cases h : j = i <;> simp_all only [and_true, and_self, and_false,
    decide_true, decide_false, Bool.or_true, Bool.or_false, Bool.not_true, Bool.not_false, Bool.and_true,
    Bool.and_false, if_true, if_false, not_false_eq_true, forall_const]

/-- Bit `j` of a field's mask. -/
@[simp] theorem fieldMask_getLsbD (s j : Nat) :
    (fieldMask s).getLsbD j = decide (s ≤ j ∧ j < s + 3 ∧ j < 32) := by
  simp only [fieldMask, BitVec.getLsbD_shiftLeft]
  by_cases hs : j < s
  · simp [hs]
  · have h7 : (7#32).getLsbD (j - s) = decide (j - s < 3) := by
      by_cases h3 : j - s < 3
      · have : j - s = 0 ∨ j - s = 1 ∨ j - s = 2 := by omega
        rcases this with h | h | h <;> rw [h] <;> decide
      · rw [BitVec.getLsbD_ofNat, Nat.testBit_lt_two_pow
          (Nat.lt_of_lt_of_le (by decide : 7 < 2 ^ 3) (Nat.pow_le_pow_right (by decide) (by omega)))]
        simp [h3]
    rw [h7]
    simp only [hs, decide_false, Bool.not_false, Bool.and_true, ← Bool.decide_and]
    congr 1
    apply propext
    omega

/-- A field write changes the three bits of the field and no other. -/
@[simp] theorem fieldInsert_getLsbD (r : Word) (s : Nat) (p : BitVec 3) (j : Nat) :
    (fieldInsert r s p).getLsbD j =
      if s ≤ j ∧ j < s + 3 ∧ j < 32 then p.getLsbD (j - s) else r.getLsbD j := by
  simp only [fieldInsert, BitVec.getLsbD_or, BitVec.getLsbD_and, BitVec.getLsbD_not, fieldMask_getLsbD,
    BitVec.getLsbD_shiftLeft, BitVec.getLsbD_setWidth]
  by_cases hj : j < 32
  · by_cases hs : s ≤ j
    · by_cases h3 : j < s + 3
      · simp [hj, hs, h3, Nat.not_lt.mpr hs, show j - s < 32 by omega]
      · simp [hj, hs, h3, BitVec.getLsbD_of_ge p (j - s) (by omega)]
    · simp [hj, hs, Nat.lt_of_not_le hs]
  · simp [hj, BitVec.getLsbD_of_ge r j (by omega)]

/-- Bit `j` of a field read. -/
@[simp] theorem fieldExtract_getLsbD (r : Word) (s j : Nat) :
    (fieldExtract r s).getLsbD j = (decide (j < 3) && r.getLsbD (s + j)) := by
  simp [fieldExtract]

/-- The bits of `TCTRL` as a word: bit 0 `ENABLE`, bit 1 `INTEN`, bit 2 `CLKSRC`, bit 16 `COUNT`, all others zero. -/
theorem Tctrl.word_getLsbD (c : Tctrl) (j : Nat) :
    c.word.getLsbD j =
      if j = 16 then c.count else if j = 2 then c.clksrc else if j = 1 then c.inten
      else if j = 0 then c.enable else false := by
  simp only [Tctrl.word, setBit_getLsbD, Config.ctrlEnableBit, Config.ctrlIntenBit, Config.ctrlClksrcBit,
    Config.ctrlCountBit]
  repeat' split
  all_goals first | rfl | omega | exact BitVec.getLsbD_zero

/-- The bits of `STATUS`: bit 0 `GIE`, bit 1 `GFE`, bit 2 `ST_PEND`, all others zero. -/
theorem State.statusWord_getLsbD (s : State) (j : Nat) :
    s.statusWord.getLsbD j =
      if j = 2 then s.stPend else if j = 1 then s.gfe else if j = 0 then s.gie else false := by
  simp only [State.statusWord, setBit_getLsbD]
  repeat' split
  all_goals first | rfl | omega | exact BitVec.getLsbD_zero

end Sys2Proof.Machine
end

