-- ==== Sys2Proof/Laws/Decode.lean ====
section
/-! SUPPORT. The fields of a command word and the word of given fields (30_encoding.md rule R49). -/

namespace Sys2Proof

/-- Reading the fields of a command word gives back the fields it was made of, and `Z` = 0. -/
@[simp] theorem fieldsOf_commandWord (op a b : Nat) (w : Word) :
    fieldsOf (commandWord op a b w) = ⟨BitVec.ofNat 8 op, BitVec.ofNat 8 a, BitVec.ofNat 8 b, 0, w⟩ := by
  simp only [fieldsOf, commandWord, Fields.mk.injEq]
  refine ⟨?_, ?_, ?_, ?_, ?_⟩ <;>
    (apply BitVec.eq_of_getLsbD_eq
     intro i hi
     simp only [BitVec.getLsbD_extractLsb', BitVec.getLsbD_append, hi, decide_true, Bool.true_and]
     repeat' split
     all_goals first | omega | (congr 1; omega))

/-- A word whose field `Z` is zero is the command word of its fields. -/
theorem commandWord_fieldsOf (c : CmdWord) (hz : (fieldsOf c).z = 0) :
    commandWord (fieldsOf c).op.toNat (fieldsOf c).a.toNat (fieldsOf c).b.toNat (fieldsOf c).w = c := by
  simp only [commandWord, BitVec.ofNat_toNat, BitVec.setWidth_eq]
  rw [← show (fieldsOf c).z = 0#8 from hz]
  apply BitVec.eq_of_getLsbD_eq
  intro i hi
  simp only [fieldsOf, BitVec.getLsbD_append, BitVec.getLsbD_extractLsb']
  repeat' split
  all_goals
    (rw [decide_eq_true (by omega), Bool.true_and]
     congr 1
     omega)

end Sys2Proof
end

