-- ==== Sys2Proof/Laws/State.lean ====
section
/-! SUPPORT. One lemma per field per update of the state, each true by unfolding, so that no proof unfolds a record
update. -/

namespace Sys2Proof.Machine

variable (s : State)

/-! ### `setCount` -/

@[simp] theorem State.setCount_en (b : Bool) : (s.setCount b).en = s.en := rfl
@[simp] theorem State.setCount_ipr (b : Bool) : (s.setCount b).ipr = s.ipr := rfl
@[simp] theorem State.setCount_shc (b : Bool) : (s.setCount b).shc = s.shc := rfl
@[simp] theorem State.setCount_pri1 (b : Bool) : (s.setCount b).pri1 = s.pri1 := rfl
@[simp] theorem State.setCount_pri2 (b : Bool) : (s.setCount b).pri2 = s.pri2 := rfl
@[simp] theorem State.setCount_pri3 (b : Bool) : (s.setCount b).pri3 = s.pri3 := rfl
@[simp] theorem State.setCount_tctrl (b : Bool) : (s.setCount b).tctrl = { s.tctrl with count := b } := rfl
@[simp] theorem State.setCount_treload (b : Bool) : (s.setCount b).treload = s.treload := rfl
@[simp] theorem State.setCount_tcurrent (b : Bool) : (s.setCount b).tcurrent = s.tcurrent := rfl
@[simp] theorem State.setCount_callback (b : Bool) : (s.setCount b).callback = s.callback := rfl
@[simp] theorem State.setCount_gie (b : Bool) : (s.setCount b).gie = s.gie := rfl
@[simp] theorem State.setCount_gfe (b : Bool) : (s.setCount b).gfe = s.gfe := rfl
@[simp] theorem State.setCount_stPend (b : Bool) : (s.setCount b).stPend = s.stPend := rfl
@[simp] theorem State.setCount_bw (b : Bool) : (s.setCount b).bw = s.bw := rfl
@[simp] theorem State.setCount_port (b : Bool) : (s.setCount b).port = s.port := rfl
@[simp] theorem State.setCount_turns (b : Bool) : (s.setCount b).turns = s.turns := rfl
@[simp] theorem State.setCount_out (b : Bool) : (s.setCount b).out = s.out := rfl
@[simp] theorem State.setCount_params (b : Bool) : (s.setCount b).params = s.params := rfl

/-! ### `ctrlRead_snd` -/

@[simp] theorem State.ctrlRead_snd_en : (s.ctrlRead.2).en = s.en := rfl
@[simp] theorem State.ctrlRead_snd_ipr : (s.ctrlRead.2).ipr = s.ipr := rfl
@[simp] theorem State.ctrlRead_snd_shc : (s.ctrlRead.2).shc = s.shc := rfl
@[simp] theorem State.ctrlRead_snd_pri1 : (s.ctrlRead.2).pri1 = s.pri1 := rfl
@[simp] theorem State.ctrlRead_snd_pri2 : (s.ctrlRead.2).pri2 = s.pri2 := rfl
@[simp] theorem State.ctrlRead_snd_pri3 : (s.ctrlRead.2).pri3 = s.pri3 := rfl
@[simp] theorem State.ctrlRead_snd_tctrl : (s.ctrlRead.2).tctrl = { s.tctrl with count := false } := rfl
@[simp] theorem State.ctrlRead_snd_treload : (s.ctrlRead.2).treload = s.treload := rfl
@[simp] theorem State.ctrlRead_snd_tcurrent : (s.ctrlRead.2).tcurrent = s.tcurrent := rfl
@[simp] theorem State.ctrlRead_snd_callback : (s.ctrlRead.2).callback = s.callback := rfl
@[simp] theorem State.ctrlRead_snd_gie : (s.ctrlRead.2).gie = s.gie := rfl
@[simp] theorem State.ctrlRead_snd_gfe : (s.ctrlRead.2).gfe = s.gfe := rfl
@[simp] theorem State.ctrlRead_snd_stPend : (s.ctrlRead.2).stPend = s.stPend := rfl
@[simp] theorem State.ctrlRead_snd_bw : (s.ctrlRead.2).bw = s.bw := rfl
@[simp] theorem State.ctrlRead_snd_port : (s.ctrlRead.2).port = s.port := rfl
@[simp] theorem State.ctrlRead_snd_turns : (s.ctrlRead.2).turns = s.turns := rfl
@[simp] theorem State.ctrlRead_snd_out : (s.ctrlRead.2).out = s.out := rfl
@[simp] theorem State.ctrlRead_snd_params : (s.ctrlRead.2).params = s.params := rfl

/-! ### `ctrlWrite` -/

@[simp] theorem State.ctrlWrite_en (v : Word) : (s.ctrlWrite v).en = s.en := rfl
@[simp] theorem State.ctrlWrite_ipr (v : Word) : (s.ctrlWrite v).ipr = s.ipr := rfl
@[simp] theorem State.ctrlWrite_shc (v : Word) : (s.ctrlWrite v).shc = s.shc := rfl
@[simp] theorem State.ctrlWrite_pri1 (v : Word) : (s.ctrlWrite v).pri1 = s.pri1 := rfl
@[simp] theorem State.ctrlWrite_pri2 (v : Word) : (s.ctrlWrite v).pri2 = s.pri2 := rfl
@[simp] theorem State.ctrlWrite_pri3 (v : Word) : (s.ctrlWrite v).pri3 = s.pri3 := rfl
@[simp] theorem State.ctrlWrite_tctrl (v : Word) : (s.ctrlWrite v).tctrl = { enable := v.getLsbD 0, inten := v.getLsbD 1, clksrc := v.getLsbD 2, count := s.tctrl.count } := rfl
@[simp] theorem State.ctrlWrite_treload (v : Word) : (s.ctrlWrite v).treload = s.treload := rfl
@[simp] theorem State.ctrlWrite_tcurrent (v : Word) : (s.ctrlWrite v).tcurrent = s.tcurrent := rfl
@[simp] theorem State.ctrlWrite_callback (v : Word) : (s.ctrlWrite v).callback = s.callback := rfl
@[simp] theorem State.ctrlWrite_gie (v : Word) : (s.ctrlWrite v).gie = s.gie := rfl
@[simp] theorem State.ctrlWrite_gfe (v : Word) : (s.ctrlWrite v).gfe = s.gfe := rfl
@[simp] theorem State.ctrlWrite_stPend (v : Word) : (s.ctrlWrite v).stPend = s.stPend := rfl
@[simp] theorem State.ctrlWrite_bw (v : Word) : (s.ctrlWrite v).bw = s.bw := rfl
@[simp] theorem State.ctrlWrite_port (v : Word) : (s.ctrlWrite v).port = s.port := rfl
@[simp] theorem State.ctrlWrite_turns (v : Word) : (s.ctrlWrite v).turns = s.turns := rfl
@[simp] theorem State.ctrlWrite_out (v : Word) : (s.ctrlWrite v).out = s.out := rfl
@[simp] theorem State.ctrlWrite_params (v : Word) : (s.ctrlWrite v).params = s.params := rfl

/-! ### `curZero` -/

@[simp] theorem State.curZero_en : (s.curZero).en = s.en := rfl
@[simp] theorem State.curZero_ipr : (s.curZero).ipr = s.ipr := rfl
@[simp] theorem State.curZero_shc : (s.curZero).shc = s.shc := rfl
@[simp] theorem State.curZero_pri1 : (s.curZero).pri1 = s.pri1 := rfl
@[simp] theorem State.curZero_pri2 : (s.curZero).pri2 = s.pri2 := rfl
@[simp] theorem State.curZero_pri3 : (s.curZero).pri3 = s.pri3 := rfl
@[simp] theorem State.curZero_tctrl : (s.curZero).tctrl = { s.tctrl with count := false } := rfl
@[simp] theorem State.curZero_treload : (s.curZero).treload = s.treload := rfl
@[simp] theorem State.curZero_tcurrent : (s.curZero).tcurrent = 0 := rfl
@[simp] theorem State.curZero_callback : (s.curZero).callback = s.callback := rfl
@[simp] theorem State.curZero_gie : (s.curZero).gie = s.gie := rfl
@[simp] theorem State.curZero_gfe : (s.curZero).gfe = s.gfe := rfl
@[simp] theorem State.curZero_stPend : (s.curZero).stPend = s.stPend := rfl
@[simp] theorem State.curZero_bw : (s.curZero).bw = s.bw := rfl
@[simp] theorem State.curZero_port : (s.curZero).port = s.port := rfl
@[simp] theorem State.curZero_turns : (s.curZero).turns = s.turns := rfl
@[simp] theorem State.curZero_out : (s.curZero).out = s.out := rfl
@[simp] theorem State.curZero_params : (s.curZero).params = s.params := rfl

/-! ### `ctrlSetBit` -/

@[simp] theorem State.ctrlSetBit_en (i : Nat) (b : Bool) : (s.ctrlSetBit i b).en = s.en := rfl
@[simp] theorem State.ctrlSetBit_ipr (i : Nat) (b : Bool) : (s.ctrlSetBit i b).ipr = s.ipr := rfl
@[simp] theorem State.ctrlSetBit_shc (i : Nat) (b : Bool) : (s.ctrlSetBit i b).shc = s.shc := rfl
@[simp] theorem State.ctrlSetBit_pri1 (i : Nat) (b : Bool) : (s.ctrlSetBit i b).pri1 = s.pri1 := rfl
@[simp] theorem State.ctrlSetBit_pri2 (i : Nat) (b : Bool) : (s.ctrlSetBit i b).pri2 = s.pri2 := rfl
@[simp] theorem State.ctrlSetBit_pri3 (i : Nat) (b : Bool) : (s.ctrlSetBit i b).pri3 = s.pri3 := rfl
@[simp] theorem State.ctrlSetBit_treload (i : Nat) (b : Bool) : (s.ctrlSetBit i b).treload = s.treload := rfl
@[simp] theorem State.ctrlSetBit_tcurrent (i : Nat) (b : Bool) : (s.ctrlSetBit i b).tcurrent = s.tcurrent := rfl
@[simp] theorem State.ctrlSetBit_callback (i : Nat) (b : Bool) : (s.ctrlSetBit i b).callback = s.callback := rfl
@[simp] theorem State.ctrlSetBit_gie (i : Nat) (b : Bool) : (s.ctrlSetBit i b).gie = s.gie := rfl
@[simp] theorem State.ctrlSetBit_gfe (i : Nat) (b : Bool) : (s.ctrlSetBit i b).gfe = s.gfe := rfl
@[simp] theorem State.ctrlSetBit_stPend (i : Nat) (b : Bool) : (s.ctrlSetBit i b).stPend = s.stPend := rfl
@[simp] theorem State.ctrlSetBit_bw (i : Nat) (b : Bool) : (s.ctrlSetBit i b).bw = s.bw := rfl
@[simp] theorem State.ctrlSetBit_port (i : Nat) (b : Bool) : (s.ctrlSetBit i b).port = s.port := rfl
@[simp] theorem State.ctrlSetBit_turns (i : Nat) (b : Bool) : (s.ctrlSetBit i b).turns = s.turns := rfl
@[simp] theorem State.ctrlSetBit_out (i : Nat) (b : Bool) : (s.ctrlSetBit i b).out = s.out := rfl
@[simp] theorem State.ctrlSetBit_params (i : Nat) (b : Bool) : (s.ctrlSetBit i b).params = s.params := rfl

/-! ### `setEn` -/

@[simp] theorem State.setEn_en (r : Nat) (v : Word) : (s.setEn r v).en = s.en.setIfInBounds r v := rfl
@[simp] theorem State.setEn_ipr (r : Nat) (v : Word) : (s.setEn r v).ipr = s.ipr := rfl
@[simp] theorem State.setEn_shc (r : Nat) (v : Word) : (s.setEn r v).shc = s.shc := rfl
@[simp] theorem State.setEn_pri1 (r : Nat) (v : Word) : (s.setEn r v).pri1 = s.pri1 := rfl
@[simp] theorem State.setEn_pri2 (r : Nat) (v : Word) : (s.setEn r v).pri2 = s.pri2 := rfl
@[simp] theorem State.setEn_pri3 (r : Nat) (v : Word) : (s.setEn r v).pri3 = s.pri3 := rfl
@[simp] theorem State.setEn_tctrl (r : Nat) (v : Word) : (s.setEn r v).tctrl = s.tctrl := rfl
@[simp] theorem State.setEn_treload (r : Nat) (v : Word) : (s.setEn r v).treload = s.treload := rfl
@[simp] theorem State.setEn_tcurrent (r : Nat) (v : Word) : (s.setEn r v).tcurrent = s.tcurrent := rfl
@[simp] theorem State.setEn_callback (r : Nat) (v : Word) : (s.setEn r v).callback = s.callback := rfl
@[simp] theorem State.setEn_gie (r : Nat) (v : Word) : (s.setEn r v).gie = s.gie := rfl
@[simp] theorem State.setEn_gfe (r : Nat) (v : Word) : (s.setEn r v).gfe = s.gfe := rfl
@[simp] theorem State.setEn_stPend (r : Nat) (v : Word) : (s.setEn r v).stPend = s.stPend := rfl
@[simp] theorem State.setEn_bw (r : Nat) (v : Word) : (s.setEn r v).bw = s.bw := rfl
@[simp] theorem State.setEn_port (r : Nat) (v : Word) : (s.setEn r v).port = s.port := rfl
@[simp] theorem State.setEn_turns (r : Nat) (v : Word) : (s.setEn r v).turns = s.turns := rfl
@[simp] theorem State.setEn_out (r : Nat) (v : Word) : (s.setEn r v).out = s.out := rfl
@[simp] theorem State.setEn_params (r : Nat) (v : Word) : (s.setEn r v).params = s.params := rfl

/-! ### `setIpr` -/

@[simp] theorem State.setIpr_en (r : Nat) (v : Word) : (s.setIpr r v).en = s.en := rfl
@[simp] theorem State.setIpr_ipr (r : Nat) (v : Word) : (s.setIpr r v).ipr = s.ipr.setIfInBounds r v := rfl
@[simp] theorem State.setIpr_shc (r : Nat) (v : Word) : (s.setIpr r v).shc = s.shc := rfl
@[simp] theorem State.setIpr_pri1 (r : Nat) (v : Word) : (s.setIpr r v).pri1 = s.pri1 := rfl
@[simp] theorem State.setIpr_pri2 (r : Nat) (v : Word) : (s.setIpr r v).pri2 = s.pri2 := rfl
@[simp] theorem State.setIpr_pri3 (r : Nat) (v : Word) : (s.setIpr r v).pri3 = s.pri3 := rfl
@[simp] theorem State.setIpr_tctrl (r : Nat) (v : Word) : (s.setIpr r v).tctrl = s.tctrl := rfl
@[simp] theorem State.setIpr_treload (r : Nat) (v : Word) : (s.setIpr r v).treload = s.treload := rfl
@[simp] theorem State.setIpr_tcurrent (r : Nat) (v : Word) : (s.setIpr r v).tcurrent = s.tcurrent := rfl
@[simp] theorem State.setIpr_callback (r : Nat) (v : Word) : (s.setIpr r v).callback = s.callback := rfl
@[simp] theorem State.setIpr_gie (r : Nat) (v : Word) : (s.setIpr r v).gie = s.gie := rfl
@[simp] theorem State.setIpr_gfe (r : Nat) (v : Word) : (s.setIpr r v).gfe = s.gfe := rfl
@[simp] theorem State.setIpr_stPend (r : Nat) (v : Word) : (s.setIpr r v).stPend = s.stPend := rfl
@[simp] theorem State.setIpr_bw (r : Nat) (v : Word) : (s.setIpr r v).bw = s.bw := rfl
@[simp] theorem State.setIpr_port (r : Nat) (v : Word) : (s.setIpr r v).port = s.port := rfl
@[simp] theorem State.setIpr_turns (r : Nat) (v : Word) : (s.setIpr r v).turns = s.turns := rfl
@[simp] theorem State.setIpr_out (r : Nat) (v : Word) : (s.setIpr r v).out = s.out := rfl
@[simp] theorem State.setIpr_params (r : Nat) (v : Word) : (s.setIpr r v).params = s.params := rfl

/-! ### `setShc` -/

@[simp] theorem State.setShc_en (v : Word) : (s.setShc v).en = s.en := rfl
@[simp] theorem State.setShc_ipr (v : Word) : (s.setShc v).ipr = s.ipr := rfl
@[simp] theorem State.setShc_shc (v : Word) : (s.setShc v).shc = v := rfl
@[simp] theorem State.setShc_pri1 (v : Word) : (s.setShc v).pri1 = s.pri1 := rfl
@[simp] theorem State.setShc_pri2 (v : Word) : (s.setShc v).pri2 = s.pri2 := rfl
@[simp] theorem State.setShc_pri3 (v : Word) : (s.setShc v).pri3 = s.pri3 := rfl
@[simp] theorem State.setShc_tctrl (v : Word) : (s.setShc v).tctrl = s.tctrl := rfl
@[simp] theorem State.setShc_treload (v : Word) : (s.setShc v).treload = s.treload := rfl
@[simp] theorem State.setShc_tcurrent (v : Word) : (s.setShc v).tcurrent = s.tcurrent := rfl
@[simp] theorem State.setShc_callback (v : Word) : (s.setShc v).callback = s.callback := rfl
@[simp] theorem State.setShc_gie (v : Word) : (s.setShc v).gie = s.gie := rfl
@[simp] theorem State.setShc_gfe (v : Word) : (s.setShc v).gfe = s.gfe := rfl
@[simp] theorem State.setShc_stPend (v : Word) : (s.setShc v).stPend = s.stPend := rfl
@[simp] theorem State.setShc_bw (v : Word) : (s.setShc v).bw = s.bw := rfl
@[simp] theorem State.setShc_port (v : Word) : (s.setShc v).port = s.port := rfl
@[simp] theorem State.setShc_turns (v : Word) : (s.setShc v).turns = s.turns := rfl
@[simp] theorem State.setShc_out (v : Word) : (s.setShc v).out = s.out := rfl
@[simp] theorem State.setShc_params (v : Word) : (s.setShc v).params = s.params := rfl

/-! ### `setReload` -/

@[simp] theorem State.setReload_en (v : Count) : (s.setReload v).en = s.en := rfl
@[simp] theorem State.setReload_ipr (v : Count) : (s.setReload v).ipr = s.ipr := rfl
@[simp] theorem State.setReload_shc (v : Count) : (s.setReload v).shc = s.shc := rfl
@[simp] theorem State.setReload_pri1 (v : Count) : (s.setReload v).pri1 = s.pri1 := rfl
@[simp] theorem State.setReload_pri2 (v : Count) : (s.setReload v).pri2 = s.pri2 := rfl
@[simp] theorem State.setReload_pri3 (v : Count) : (s.setReload v).pri3 = s.pri3 := rfl
@[simp] theorem State.setReload_tctrl (v : Count) : (s.setReload v).tctrl = s.tctrl := rfl
@[simp] theorem State.setReload_treload (v : Count) : (s.setReload v).treload = v := rfl
@[simp] theorem State.setReload_tcurrent (v : Count) : (s.setReload v).tcurrent = s.tcurrent := rfl
@[simp] theorem State.setReload_callback (v : Count) : (s.setReload v).callback = s.callback := rfl
@[simp] theorem State.setReload_gie (v : Count) : (s.setReload v).gie = s.gie := rfl
@[simp] theorem State.setReload_gfe (v : Count) : (s.setReload v).gfe = s.gfe := rfl
@[simp] theorem State.setReload_stPend (v : Count) : (s.setReload v).stPend = s.stPend := rfl
@[simp] theorem State.setReload_bw (v : Count) : (s.setReload v).bw = s.bw := rfl
@[simp] theorem State.setReload_port (v : Count) : (s.setReload v).port = s.port := rfl
@[simp] theorem State.setReload_turns (v : Count) : (s.setReload v).turns = s.turns := rfl
@[simp] theorem State.setReload_out (v : Count) : (s.setReload v).out = s.out := rfl
@[simp] theorem State.setReload_params (v : Count) : (s.setReload v).params = s.params := rfl

/-! ### `emit` -/

@[simp] theorem State.emit_en (e : Event) : (s.emit e).en = s.en := rfl
@[simp] theorem State.emit_ipr (e : Event) : (s.emit e).ipr = s.ipr := rfl
@[simp] theorem State.emit_shc (e : Event) : (s.emit e).shc = s.shc := rfl
@[simp] theorem State.emit_pri1 (e : Event) : (s.emit e).pri1 = s.pri1 := rfl
@[simp] theorem State.emit_pri2 (e : Event) : (s.emit e).pri2 = s.pri2 := rfl
@[simp] theorem State.emit_pri3 (e : Event) : (s.emit e).pri3 = s.pri3 := rfl
@[simp] theorem State.emit_tctrl (e : Event) : (s.emit e).tctrl = s.tctrl := rfl
@[simp] theorem State.emit_treload (e : Event) : (s.emit e).treload = s.treload := rfl
@[simp] theorem State.emit_tcurrent (e : Event) : (s.emit e).tcurrent = s.tcurrent := rfl
@[simp] theorem State.emit_callback (e : Event) : (s.emit e).callback = s.callback := rfl
@[simp] theorem State.emit_gie (e : Event) : (s.emit e).gie = s.gie := rfl
@[simp] theorem State.emit_gfe (e : Event) : (s.emit e).gfe = s.gfe := rfl
@[simp] theorem State.emit_stPend (e : Event) : (s.emit e).stPend = s.stPend := rfl
@[simp] theorem State.emit_bw (e : Event) : (s.emit e).bw = s.bw := rfl
@[simp] theorem State.emit_port (e : Event) : (s.emit e).port = s.port := rfl
@[simp] theorem State.emit_turns (e : Event) : (s.emit e).turns = s.turns := rfl
@[simp] theorem State.emit_out (e : Event) : (s.emit e).out = s.out ++ [e] := rfl
@[simp] theorem State.emit_params (e : Event) : (s.emit e).params = s.params := rfl

/-! ### `armTimer` -/

@[simp] theorem State.armTimer_en (c : Count) (v : Word) : (s.armTimer c v).en = s.en := rfl
@[simp] theorem State.armTimer_ipr (c : Count) (v : Word) : (s.armTimer c v).ipr = s.ipr := rfl
@[simp] theorem State.armTimer_shc (c : Count) (v : Word) : (s.armTimer c v).shc = s.shc := rfl
@[simp] theorem State.armTimer_pri1 (c : Count) (v : Word) : (s.armTimer c v).pri1 = s.pri1 := rfl
@[simp] theorem State.armTimer_pri2 (c : Count) (v : Word) : (s.armTimer c v).pri2 = s.pri2 := rfl
@[simp] theorem State.armTimer_pri3 (c : Count) (v : Word) : (s.armTimer c v).pri3 = s.pri3 := rfl
@[simp] theorem State.armTimer_tctrl (c : Count) (v : Word) : (s.armTimer c v).tctrl = { enable := v.getLsbD 0, inten := v.getLsbD 1, clksrc := v.getLsbD 2, count := false } := rfl
@[simp] theorem State.armTimer_treload (c : Count) (v : Word) : (s.armTimer c v).treload = c := rfl
@[simp] theorem State.armTimer_tcurrent (c : Count) (v : Word) : (s.armTimer c v).tcurrent = 0 := rfl
@[simp] theorem State.armTimer_callback (c : Count) (v : Word) : (s.armTimer c v).callback = s.callback := rfl
@[simp] theorem State.armTimer_gie (c : Count) (v : Word) : (s.armTimer c v).gie = s.gie := rfl
@[simp] theorem State.armTimer_gfe (c : Count) (v : Word) : (s.armTimer c v).gfe = s.gfe := rfl
@[simp] theorem State.armTimer_stPend (c : Count) (v : Word) : (s.armTimer c v).stPend = s.stPend := rfl
@[simp] theorem State.armTimer_bw (c : Count) (v : Word) : (s.armTimer c v).bw = s.bw := rfl
@[simp] theorem State.armTimer_port (c : Count) (v : Word) : (s.armTimer c v).port = s.port := rfl
@[simp] theorem State.armTimer_turns (c : Count) (v : Word) : (s.armTimer c v).turns = s.turns := rfl
@[simp] theorem State.armTimer_out (c : Count) (v : Word) : (s.armTimer c v).out = s.out := rfl
@[simp] theorem State.armTimer_params (c : Count) (v : Word) : (s.armTimer c v).params = s.params := rfl

/-! ### `deinitTimer` -/

@[simp] theorem State.deinitTimer_en : (s.deinitTimer).en = s.en := rfl
@[simp] theorem State.deinitTimer_ipr : (s.deinitTimer).ipr = s.ipr := rfl
@[simp] theorem State.deinitTimer_shc : (s.deinitTimer).shc = s.shc := rfl
@[simp] theorem State.deinitTimer_pri1 : (s.deinitTimer).pri1 = s.pri1 := rfl
@[simp] theorem State.deinitTimer_pri2 : (s.deinitTimer).pri2 = s.pri2 := rfl
@[simp] theorem State.deinitTimer_pri3 : (s.deinitTimer).pri3 = s.pri3 := rfl
@[simp] theorem State.deinitTimer_tctrl : (s.deinitTimer).tctrl = { enable := false, inten := false, clksrc := false, count := false } := rfl
@[simp] theorem State.deinitTimer_treload : (s.deinitTimer).treload = 0 := rfl
@[simp] theorem State.deinitTimer_tcurrent : (s.deinitTimer).tcurrent = 0 := rfl
@[simp] theorem State.deinitTimer_callback : (s.deinitTimer).callback = s.callback := rfl
@[simp] theorem State.deinitTimer_gie : (s.deinitTimer).gie = s.gie := rfl
@[simp] theorem State.deinitTimer_gfe : (s.deinitTimer).gfe = s.gfe := rfl
@[simp] theorem State.deinitTimer_stPend : (s.deinitTimer).stPend = s.stPend := rfl
@[simp] theorem State.deinitTimer_bw : (s.deinitTimer).bw = s.bw := rfl
@[simp] theorem State.deinitTimer_port : (s.deinitTimer).port = s.port := rfl
@[simp] theorem State.deinitTimer_turns : (s.deinitTimer).turns = s.turns := rfl
@[simp] theorem State.deinitTimer_out : (s.deinitTimer).out = s.out := rfl
@[simp] theorem State.deinitTimer_params : (s.deinitTimer).params = s.params := rfl

/-! ### `takeTurn` -/

@[simp] theorem State.takeTurn_en : (s.takeTurn).en = s.en := rfl
@[simp] theorem State.takeTurn_ipr : (s.takeTurn).ipr = s.ipr := rfl
@[simp] theorem State.takeTurn_shc : (s.takeTurn).shc = s.shc := rfl
@[simp] theorem State.takeTurn_pri1 : (s.takeTurn).pri1 = s.pri1 := rfl
@[simp] theorem State.takeTurn_pri2 : (s.takeTurn).pri2 = s.pri2 := rfl
@[simp] theorem State.takeTurn_pri3 : (s.takeTurn).pri3 = s.pri3 := rfl
@[simp] theorem State.takeTurn_tctrl : (s.takeTurn).tctrl = s.tctrl := rfl
@[simp] theorem State.takeTurn_treload : (s.takeTurn).treload = s.treload := rfl
@[simp] theorem State.takeTurn_tcurrent : (s.takeTurn).tcurrent = s.tcurrent := rfl
@[simp] theorem State.takeTurn_callback : (s.takeTurn).callback = s.callback := rfl
@[simp] theorem State.takeTurn_gie : (s.takeTurn).gie = s.gie := rfl
@[simp] theorem State.takeTurn_gfe : (s.takeTurn).gfe = s.gfe := rfl
@[simp] theorem State.takeTurn_stPend : (s.takeTurn).stPend = s.stPend := rfl
@[simp] theorem State.takeTurn_bw : (s.takeTurn).bw = s.bw := rfl
@[simp] theorem State.takeTurn_port : (s.takeTurn).port = s.port := rfl
@[simp] theorem State.takeTurn_turns : (s.takeTurn).turns = s.turns.tail := rfl
@[simp] theorem State.takeTurn_out : (s.takeTurn).out = s.out := rfl
@[simp] theorem State.takeTurn_params : (s.takeTurn).params = s.params := rfl

/-! ### `takeCommand` -/

@[simp] theorem State.takeCommand_en : (s.takeCommand).en = s.en := rfl
@[simp] theorem State.takeCommand_ipr : (s.takeCommand).ipr = s.ipr := rfl
@[simp] theorem State.takeCommand_shc : (s.takeCommand).shc = s.shc := rfl
@[simp] theorem State.takeCommand_pri1 : (s.takeCommand).pri1 = s.pri1 := rfl
@[simp] theorem State.takeCommand_pri2 : (s.takeCommand).pri2 = s.pri2 := rfl
@[simp] theorem State.takeCommand_pri3 : (s.takeCommand).pri3 = s.pri3 := rfl
@[simp] theorem State.takeCommand_tctrl : (s.takeCommand).tctrl = s.tctrl := rfl
@[simp] theorem State.takeCommand_treload : (s.takeCommand).treload = s.treload := rfl
@[simp] theorem State.takeCommand_tcurrent : (s.takeCommand).tcurrent = s.tcurrent := rfl
@[simp] theorem State.takeCommand_callback : (s.takeCommand).callback = s.callback := rfl
@[simp] theorem State.takeCommand_gie : (s.takeCommand).gie = s.gie := rfl
@[simp] theorem State.takeCommand_gfe : (s.takeCommand).gfe = s.gfe := rfl
@[simp] theorem State.takeCommand_stPend : (s.takeCommand).stPend = s.stPend := rfl
@[simp] theorem State.takeCommand_bw : (s.takeCommand).bw = s.bw := rfl
@[simp] theorem State.takeCommand_port : (s.takeCommand).port = s.port.tail := rfl
@[simp] theorem State.takeCommand_turns : (s.takeCommand).turns = s.turns := rfl
@[simp] theorem State.takeCommand_out : (s.takeCommand).out = s.out := rfl
@[simp] theorem State.takeCommand_params : (s.takeCommand).params = s.params := rfl

/-! ### `present` -/

@[simp] theorem State.present_en (w : CmdWord) : (s.present w).en = s.en := rfl
@[simp] theorem State.present_ipr (w : CmdWord) : (s.present w).ipr = s.ipr := rfl
@[simp] theorem State.present_shc (w : CmdWord) : (s.present w).shc = s.shc := rfl
@[simp] theorem State.present_pri1 (w : CmdWord) : (s.present w).pri1 = s.pri1 := rfl
@[simp] theorem State.present_pri2 (w : CmdWord) : (s.present w).pri2 = s.pri2 := rfl
@[simp] theorem State.present_pri3 (w : CmdWord) : (s.present w).pri3 = s.pri3 := rfl
@[simp] theorem State.present_tctrl (w : CmdWord) : (s.present w).tctrl = s.tctrl := rfl
@[simp] theorem State.present_treload (w : CmdWord) : (s.present w).treload = s.treload := rfl
@[simp] theorem State.present_tcurrent (w : CmdWord) : (s.present w).tcurrent = s.tcurrent := rfl
@[simp] theorem State.present_callback (w : CmdWord) : (s.present w).callback = s.callback := rfl
@[simp] theorem State.present_gie (w : CmdWord) : (s.present w).gie = s.gie := rfl
@[simp] theorem State.present_gfe (w : CmdWord) : (s.present w).gfe = s.gfe := rfl
@[simp] theorem State.present_stPend (w : CmdWord) : (s.present w).stPend = s.stPend := rfl
@[simp] theorem State.present_bw (w : CmdWord) : (s.present w).bw = .idle := rfl
@[simp] theorem State.present_port (w : CmdWord) : (s.present w).port = w :: s.port := rfl
@[simp] theorem State.present_turns (w : CmdWord) : (s.present w).turns = .sequencer :: s.turns := rfl
@[simp] theorem State.present_out (w : CmdWord) : (s.present w).out = s.out := rfl
@[simp] theorem State.present_params (w : CmdWord) : (s.present w).params = s.params := rfl

/-! ### `resetEvent` -/

@[simp] theorem State.resetEvent_en : (s.resetEvent).en = s.params.image.en := rfl
@[simp] theorem State.resetEvent_ipr : (s.resetEvent).ipr = s.params.image.ipr := rfl
@[simp] theorem State.resetEvent_shc : (s.resetEvent).shc = s.params.image.shc := rfl
@[simp] theorem State.resetEvent_pri1 : (s.resetEvent).pri1 = s.params.image.pri1 := rfl
@[simp] theorem State.resetEvent_pri2 : (s.resetEvent).pri2 = s.params.image.pri2 := rfl
@[simp] theorem State.resetEvent_pri3 : (s.resetEvent).pri3 = s.params.image.pri3 := rfl
@[simp] theorem State.resetEvent_tctrl : (s.resetEvent).tctrl = { enable := false, inten := false, clksrc := false, count := false } := rfl
@[simp] theorem State.resetEvent_treload : (s.resetEvent).treload = 0 := rfl
@[simp] theorem State.resetEvent_tcurrent : (s.resetEvent).tcurrent = 0 := rfl
@[simp] theorem State.resetEvent_callback : (s.resetEvent).callback = 0 := rfl
@[simp] theorem State.resetEvent_gie : (s.resetEvent).gie = s.params.image.gie := rfl
@[simp] theorem State.resetEvent_gfe : (s.resetEvent).gfe = s.params.image.gfe := rfl
@[simp] theorem State.resetEvent_stPend : (s.resetEvent).stPend = false := rfl
@[simp] theorem State.resetEvent_bw : (s.resetEvent).bw = .idle := rfl
@[simp] theorem State.resetEvent_port : (s.resetEvent).port = s.port := rfl
@[simp] theorem State.resetEvent_turns : (s.resetEvent).turns = s.turns := rfl
@[simp] theorem State.resetEvent_out : (s.resetEvent).out = s.out := rfl
@[simp] theorem State.resetEvent_params : (s.resetEvent).params = s.params := rfl

/-! ### `setPri` -/

@[simp] theorem State.setPri_en (r : PriReg) (v : Word) : (s.setPri r v).en = s.en := by
  cases r <;> rfl
@[simp] theorem State.setPri_ipr (r : PriReg) (v : Word) : (s.setPri r v).ipr = s.ipr := by
  cases r <;> rfl
@[simp] theorem State.setPri_shc (r : PriReg) (v : Word) : (s.setPri r v).shc = s.shc := by
  cases r <;> rfl
@[simp] theorem State.setPri_pri1 (r : PriReg) (v : Word) :
    (s.setPri r v).pri1 = if r = .pri1 then v else s.pri1 := by
  cases r <;> rfl
@[simp] theorem State.setPri_pri2 (r : PriReg) (v : Word) :
    (s.setPri r v).pri2 = if r = .pri2 then v else s.pri2 := by
  cases r <;> rfl
@[simp] theorem State.setPri_pri3 (r : PriReg) (v : Word) :
    (s.setPri r v).pri3 = if r = .pri3 then v else s.pri3 := by
  cases r <;> rfl
@[simp] theorem State.setPri_tctrl (r : PriReg) (v : Word) : (s.setPri r v).tctrl = s.tctrl := by
  cases r <;> rfl
@[simp] theorem State.setPri_treload (r : PriReg) (v : Word) : (s.setPri r v).treload = s.treload := by
  cases r <;> rfl
@[simp] theorem State.setPri_tcurrent (r : PriReg) (v : Word) : (s.setPri r v).tcurrent = s.tcurrent := by
  cases r <;> rfl
@[simp] theorem State.setPri_callback (r : PriReg) (v : Word) : (s.setPri r v).callback = s.callback := by
  cases r <;> rfl
@[simp] theorem State.setPri_gie (r : PriReg) (v : Word) : (s.setPri r v).gie = s.gie := by
  cases r <;> rfl
@[simp] theorem State.setPri_gfe (r : PriReg) (v : Word) : (s.setPri r v).gfe = s.gfe := by
  cases r <;> rfl
@[simp] theorem State.setPri_stPend (r : PriReg) (v : Word) : (s.setPri r v).stPend = s.stPend := by
  cases r <;> rfl
@[simp] theorem State.setPri_bw (r : PriReg) (v : Word) : (s.setPri r v).bw = s.bw := by
  cases r <;> rfl
@[simp] theorem State.setPri_port (r : PriReg) (v : Word) : (s.setPri r v).port = s.port := by
  cases r <;> rfl
@[simp] theorem State.setPri_turns (r : PriReg) (v : Word) : (s.setPri r v).turns = s.turns := by
  cases r <;> rfl
@[simp] theorem State.setPri_out (r : PriReg) (v : Word) : (s.setPri r v).out = s.out := by
  cases r <;> rfl
@[simp] theorem State.setPri_params (r : PriReg) (v : Word) : (s.setPri r v).params = s.params := by
  cases r <;> rfl

/-! ### Reading a register after a write -/

@[simp] theorem State.enAt_setEn (r r' : Nat) (v : Word) :
    (s.setEn r v).enAt r' = if r = r' ∧ r < 5 then v else s.enAt r' := by
  simp only [State.enAt, State.setEn, Vector.getD]
  by_cases h' : r' < 5 <;> by_cases h : r = r' <;> simp [h, h']

@[simp] theorem State.iprAt_setIpr (r r' : Nat) (v : Word) :
    (s.setIpr r v).iprAt r' = if r = r' ∧ r < 35 then v else s.iprAt r' := by
  simp only [State.iprAt, State.setIpr, Vector.getD]
  by_cases h' : r' < 35 <;> by_cases h : r = r' <;> simp [h, h']

@[simp] theorem State.priAt_setPri (r r' : PriReg) (v : Word) :
    (s.setPri r v).priAt r' = if r = r' then v else s.priAt r' := by
  cases r <;> cases r' <;> rfl

end Sys2Proof.Machine
end

