-- ==== Sys2Proof/Laws/Ops.lean ====
section
/-! SUPPORT. For each shared operation, one lemma that says once everything it can do. -/

namespace Sys2Proof.Machine

/-! ### The timer control register -/

/-- The control word carries the four bits at their places. -/
theorem Tctrl.word_enable (c : Tctrl) : c.word.getLsbD 0 = c.enable := by
  rw [Tctrl.word_getLsbD]; rfl
theorem Tctrl.word_inten (c : Tctrl) : c.word.getLsbD 1 = c.inten := by
  rw [Tctrl.word_getLsbD]; rfl
theorem Tctrl.word_clksrc (c : Tctrl) : c.word.getLsbD 2 = c.clksrc := by
  rw [Tctrl.word_getLsbD]; rfl
theorem Tctrl.word_count (c : Tctrl) : c.word.getLsbD 16 = c.count := by
  rw [Tctrl.word_getLsbD]; rfl

/-- The read-modify-write of `ENABLE`. -/
@[simp] theorem State.ctrlSetBit_enable (s : State) (b : Bool) :
    s.ctrlSetBit Config.ctrlEnableBit b = { s with tctrl := { s.tctrl with enable := b, count := false } } := by
  simp only [State.ctrlSetBit, State.ctrlWrite, State.ctrlRead, State.setCount, Config.ctrlEnableBit,
    Config.ctrlIntenBit, Config.ctrlClksrcBit, setBit_getLsbD, Tctrl.word_getLsbD]
  rfl

/-- The read-modify-write of `INTEN`. -/
@[simp] theorem State.ctrlSetBit_inten (s : State) (b : Bool) :
    s.ctrlSetBit Config.ctrlIntenBit b = { s with tctrl := { s.tctrl with inten := b, count := false } } := by
  simp only [State.ctrlSetBit, State.ctrlWrite, State.ctrlRead, State.setCount, Config.ctrlEnableBit,
    Config.ctrlIntenBit, Config.ctrlClksrcBit, setBit_getLsbD, Tctrl.word_getLsbD]
  rfl

/-! ### The timer's sequences -/

/-- What arming leaves: the count zero, the flag clear, the reload and the three control bits as given. -/
theorem State.armTimer_eq (s : State) (c : Count) (v : Word) :
    s.armTimer c v =
      { s with
          tctrl := { enable := v.getLsbD 0, inten := v.getLsbD 1, clksrc := v.getLsbD 2, count := false }
          treload := c
          tcurrent := 0 } := rfl

/-- What deinitialising leaves: the three timer registers zero. -/
theorem State.deinitTimer_eq (s : State) :
    s.deinitTimer =
      { s with
          tctrl := { enable := false, inten := false, clksrc := false, count := false }
          treload := 0
          tcurrent := 0 } := rfl

/-- A poll ends the wait when it sees the flag, and otherwise changes nothing. -/
theorem State.poll_eq (s : State) :
    s.poll = if s.tctrl.count = true then { s.deinitTimer with bw := .idle } else s := by
  have hc : s.ctrlRead.1.getLsbD Config.ctrlCountBit = s.tctrl.count := Tctrl.word_count s.tctrl
  unfold State.poll
  rw [hc]
  cases h : s.tctrl.count
  · have : s.tctrl = { s.tctrl with count := false } := by rw [← h]
    simp only [Bool.false_eq_true, if_false, State.ctrlRead, State.setCount]
    rw [← this]
  · rfl

/-- A count event does one of four things. -/
theorem State.tick_cases (s : State) :
    (s.tctrl.enable = false ∧ s.tick = s) ∨
    (s.tctrl.enable = true ∧ s.tcurrent = 0 ∧ s.tick = { s with tcurrent := s.treload }) ∨
    (s.tctrl.enable = true ∧ s.tcurrent = 1 ∧
      s.tick = { s with
        tcurrent := 0
        tctrl := { s.tctrl with count := true }
        stPend := s.stPend || s.tctrl.inten }) ∨
    (s.tctrl.enable = true ∧ s.tcurrent ≠ 0 ∧ s.tcurrent ≠ 1 ∧
      s.tick = { s with tcurrent := s.tcurrent - 1 }) := by
  unfold State.tick
  cases he : s.tctrl.enable
  · exact .inl ⟨rfl, by simp⟩
  · by_cases h0 : s.tcurrent = 0
    · exact .inr (.inl ⟨rfl, h0, by simp [h0]⟩)
    · by_cases h1 : s.tcurrent = 1
      · exact .inr (.inr (.inl ⟨rfl, h1, by simp [h1, State.setCount]⟩))
      · have h2 : s.tcurrent - 1 ≠ 0 := fun h => h1 (sub_eq_zero.mp h)
        refine .inr (.inr (.inr ⟨rfl, h0, h1, ?_⟩))
        rw [if_neg (by decide), if_neg h0, if_neg h2]

/-! ### Events and delivery -/

/-- Invoking the callback emits at most one event and changes nothing else. -/
theorem State.invokeCallback_cases (s : State) :
    (s.callback = 0 ∧ s.invokeCallback = s) ∨
    (s.callback ≠ 0 ∧ s.invokeCallback = s.emit (.invoke s.callback)) := by
  unfold State.invokeCallback
  by_cases h : s.callback = 0
  · exact .inl ⟨h, if_pos h⟩
  · exact .inr ⟨h, if_neg h⟩

/-- Delivery happens exactly when the exception is pending and not masked; it clears the pending bit and invokes the
callback. -/
theorem State.deliver_cases (s : State) :
    (¬(s.stPend = true ∧ s.gie = true) ∧ s.deliver = s) ∨
    (s.stPend = true ∧ s.gie = true ∧ s.callback = 0 ∧ s.deliver = { s with stPend := false }) ∨
    (s.stPend = true ∧ s.gie = true ∧ s.callback ≠ 0 ∧
      s.deliver = { s with stPend := false, out := s.out ++ [.invoke s.callback] }) := by
  unfold State.deliver State.deliverEnabled State.takeTimerException State.invokeCallback
  cases s.stPend <;> cases s.gie
  · exact .inl ⟨by simp, rfl⟩
  · exact .inl ⟨by simp, rfl⟩
  · exact .inl ⟨by simp, rfl⟩
  · by_cases h : s.callback = 0
    · exact .inr (.inl ⟨rfl, rfl, h, by simp only [Bool.and_self, if_true, h]⟩)
    · exact .inr (.inr ⟨rfl, rfl, h, by simp only [Bool.and_self, if_true, h, if_false, State.emit]⟩)

/-! ### Enables and reads -/

/-- Enabling or disabling a line writes one bit of one enable register, or nothing. -/
theorem State.setIrqEnable_cases (s : State) (id : Nat) (b : Bool) :
    (id ≤ 138 ∧ s.setIrqEnable id b = s.setEn (id / 32) (setBit (s.enAt (id / 32)) (id % 32) b)) ∨
    (138 < id ∧ s.setIrqEnable id b = s) := by
  unfold State.setIrqEnable
  by_cases h : id ≤ 138
  · exact .inl ⟨h, by simp only [Config.irqMax, h, if_true]; rfl⟩
  · exact .inr ⟨by omega, by simp only [Config.irqMax, h, if_false]⟩

/-- Enabling or disabling a kind writes one bit of `SHC`, or `INTEN` with the read's side effect, or nothing. -/
theorem State.setExcEnable_cases (s : State) (kind : Nat) (b : Bool) :
    (kind = 3 ∧ s.setExcEnable kind b = s.setShc (setBit s.shc 16 b)) ∨
    (kind = 4 ∧ s.setExcEnable kind b = s.setShc (setBit s.shc 17 b)) ∨
    (kind = 5 ∧ s.setExcEnable kind b = s.setShc (setBit s.shc 18 b)) ∨
    (kind = 9 ∧ s.setExcEnable kind b = { s with tctrl := { s.tctrl with inten := b, count := false } }) ∨
    (kind ≠ 3 ∧ kind ≠ 4 ∧ kind ≠ 5 ∧ kind ≠ 9 ∧ s.setExcEnable kind b = s) := by
  match kind with
  | 0 | 1 | 2 | 6 | 7 | 8 => exact .inr (.inr (.inr (.inr ⟨by decide, by decide, by decide, by decide, rfl⟩)))
  | 3 => exact .inl ⟨rfl, rfl⟩
  | 4 => exact .inr (.inl ⟨rfl, rfl⟩)
  | 5 => exact .inr (.inr (.inl ⟨rfl, rfl⟩))
  | 9 => exact .inr (.inr (.inr (.inl ⟨rfl, s.ctrlSetBit_inten b⟩)))
  | n + 10 => exact .inr (.inr (.inr (.inr ⟨by omega, by omega, by omega, by omega, rfl⟩)))

/-- A read by selector changes nothing, but that the read of `TCTRL` clears `COUNT`. -/
theorem State.afterRead_cases (s : State) (sel : Nat) :
    (sel = 0x50 ∧ s.afterRead sel = s.setCount false) ∨ (sel ≠ 0x50 ∧ s.afterRead sel = s) := by
  by_cases h : sel = 0x50
  · subst h; exact .inl ⟨rfl, rfl⟩
  · refine .inr ⟨h, ?_⟩
    have : selectorOf sel ≠ .tctrl := by
      unfold selectorOf
      repeat' split
      all_goals first | exact (by decide) | (intro hc; cases hc)
    unfold State.afterRead
    split
    · contradiction
    · rfl

/-- Where `ReloadOk` holds the count register holds the reload value exactly. -/
theorem reloadCount_toNat (dur t : Nat) (h : reloadOk dur t = true) :
    (reloadCount dur t).toNat = dur * t - 1 := by
  simp only [reloadOk, decide_eq_true_eq] at h
  obtain ⟨h1, h2⟩ := h
  have : reloadValue dur t = ((dur * t - 1 : Nat) : Int) := by
    unfold reloadValue; push_cast [Nat.cast_sub h1]; rfl
  rw [reloadCount, this, BitVec.ofInt_natCast, BitVec.toNat_ofNat]
  exact Nat.mod_eq_of_lt (by omega)

/-! ### Steps -/

/-- A step of the sequencer polls, idles, skips an illegal word, or performs the next command. -/
theorem sequencerStep_cases (s : State) :
    (s.bw = .polling ∧ sequencerStep s = .next s.poll) ∨
    (s.bw = .idle ∧ s.port = [] ∧ sequencerStep s = .next s) ∨
    (∃ w rest e, s.bw = .idle ∧ s.port = w :: rest ∧ decode w = .error e ∧
      sequencerStep s = .next { s with port := rest }) ∨
    (∃ w rest i, s.bw = .idle ∧ s.port = w :: rest ∧ decode w = .ok i ∧
      sequencerStep s = exec i { s with port := rest }) := by
  unfold sequencerStep
  cases hb : s.bw with
  | polling => exact .inl ⟨rfl, rfl⟩
  | idle =>
    cases hp : s.port with
    | nil => exact .inr (.inl ⟨rfl, rfl, rfl⟩)
    | cons w rest =>
      have ht : s.takeCommand = { s with port := rest } := by rw [State.takeCommand, hp]; rfl
      have hq : perform w s.takeCommand = perform w { s with port := rest } := by rw [ht]
      cases hd : decode w with
      | error e => exact .inr (.inr (.inl ⟨w, rest, e, rfl, rfl, hd, by show perform w s.takeCommand = _; rw [hq, perform, hd, hb]⟩))
      | ok i => exact .inr (.inr (.inr ⟨w, rest, i, rfl, rfl, hd, by show perform w s.takeCommand = _; rw [hq, perform, hd, hb]⟩))

/-- A step is the step of whichever agent has the turn. -/
theorem step_cases (s : State) :
    (s.nextTurn = .sequencer ∧ step s = sequencerStep s.takeTurn) ∨
    (s.nextTurn = .tick ∧ step s = .next s.takeTurn.tick) ∨
    (s.nextTurn = .deliver ∧ step s = .next s.takeTurn.deliver) ∨
    (s.nextTurn = .reset ∧ step s = .next s.takeTurn.resetEvent) := by
  unfold step
  cases s.nextTurn
  · exact .inl ⟨rfl, rfl⟩
  · exact .inr (.inl ⟨rfl, rfl⟩)
  · exact .inr (.inr (.inl ⟨rfl, rfl⟩))
  · exact .inr (.inr (.inr ⟨rfl, rfl⟩))

end Sys2Proof.Machine
end

