-- ==== Sys2Proof/Laws/PerInstr.lean ====
section
/-! SUPPORT. Statements about every command as syntax, one lemma per constructor of `Instr`. -/

namespace Sys2Proof.Laws

/-- The word of a command carries in `OP` the opcode of the command's own row of the opcode map, and zero in `Z`
(30_encoding.md rules R49, R52). -/
def EncodedInItsRow.Statement (i : Instr) : Prop :=
  ∃ row ∈ opcodeTable, row.mnemonic = i.mnemonic ∧
    (fieldsOf (encode i)).op.toNat = row.opcode ∧ (fieldsOf (encode i)).z = 0

open EncodedInItsRow (Statement)

theorem EncodedInItsRow.enirq (id : Nat) : Statement (.enirq id) :=
  ⟨⟨"ENIRQ", 0x01, .a1⟩, by decide, rfl, by simp [encode], by simp [encode]⟩

theorem EncodedInItsRow.disirq (id : Nat) : Statement (.disirq id) :=
  ⟨⟨"DISIRQ", 0x02, .a1⟩, by decide, rfl, by simp [encode], by simp [encode]⟩

theorem EncodedInItsRow.setirqpri (id pri : Nat) : Statement (.setirqpri id pri) :=
  ⟨⟨"SETIRQPRI", 0x03, .ab⟩, by decide, rfl, by simp [encode], by simp [encode]⟩

theorem EncodedInItsRow.getirqpri (id : Nat) : Statement (.getirqpri id) :=
  ⟨⟨"GETIRQPRI", 0x04, .a1⟩, by decide, rfl, by simp [encode], by simp [encode]⟩

theorem EncodedInItsRow.enexc (kind : Nat) : Statement (.enexc kind) :=
  ⟨⟨"ENEXC", 0x05, .a1⟩, by decide, rfl, by simp [encode], by simp [encode]⟩

theorem EncodedInItsRow.disexc (kind : Nat) : Statement (.disexc kind) :=
  ⟨⟨"DISEXC", 0x06, .a1⟩, by decide, rfl, by simp [encode], by simp [encode]⟩

theorem EncodedInItsRow.setexcpri (kind pri : Nat) : Statement (.setexcpri kind pri) :=
  ⟨⟨"SETEXCPRI", 0x07, .ab⟩, by decide, rfl, by simp [encode], by simp [encode]⟩

theorem EncodedInItsRow.getexcpri (kind : Nat) : Statement (.getexcpri kind) :=
  ⟨⟨"GETEXCPRI", 0x08, .a1⟩, by decide, rfl, by simp [encode], by simp [encode]⟩

theorem EncodedInItsRow.tinit (dur : Nat) : Statement (.tinit dur) :=
  ⟨⟨"TINIT", 0x10, .w1⟩, by decide, rfl, by simp [encode], by simp [encode]⟩

theorem EncodedInItsRow.tdeinit : Statement .tdeinit :=
  ⟨⟨"TDEINIT", 0x11, .z0⟩, by decide, rfl, by simp [encode], by simp [encode]⟩

theorem EncodedInItsRow.tstart : Statement .tstart :=
  ⟨⟨"TSTART", 0x12, .z0⟩, by decide, rfl, by simp [encode], by simp [encode]⟩

theorem EncodedInItsRow.tstop : Statement .tstop :=
  ⟨⟨"TSTOP", 0x13, .z0⟩, by decide, rfl, by simp [encode], by simp [encode]⟩

theorem EncodedInItsRow.tbusywait (dur : Nat) : Statement (.tbusywait dur) :=
  ⟨⟨"TBUSYWAIT", 0x14, .w1⟩, by decide, rfl, by simp [encode], by simp [encode]⟩

theorem EncodedInItsRow.setcb (ref : Word) : Statement (.setcb ref) :=
  ⟨⟨"SETCB", 0x18, .w1⟩, by decide, rfl, by simp [encode], by simp [encode]⟩

theorem EncodedInItsRow.dispatch : Statement .dispatch :=
  ⟨⟨"DISPATCH", 0x19, .z0⟩, by decide, rfl, by simp [encode], by simp [encode]⟩

theorem EncodedInItsRow.enxcpt : Statement .enxcpt :=
  ⟨⟨"ENXCPT", 0x20, .z0⟩, by decide, rfl, by simp [encode], by simp [encode]⟩

theorem EncodedInItsRow.disxcpt : Statement .disxcpt :=
  ⟨⟨"DISXCPT", 0x21, .z0⟩, by decide, rfl, by simp [encode], by simp [encode]⟩

theorem EncodedInItsRow.enfault : Statement .enfault :=
  ⟨⟨"ENFAULT", 0x22, .z0⟩, by decide, rfl, by simp [encode], by simp [encode]⟩

theorem EncodedInItsRow.disfault : Statement .disfault :=
  ⟨⟨"DISFAULT", 0x23, .z0⟩, by decide, rfl, by simp [encode], by simp [encode]⟩

theorem EncodedInItsRow.rdreg (sel : Nat) : Statement (.rdreg sel) :=
  ⟨⟨"RDREG", 0x30, .a1⟩, by decide, rfl, by simp [encode], by simp [encode]⟩

end Sys2Proof.Laws
end

