-- ==== Sys2Proof/Laws/Step.lean ====
section
/-! SUPPORT. What a step can do and what a command can do, said once: the inversion lemmas every claim about all steps
starts from. -/

namespace Sys2Proof.Machine

/-- A step that answers a next state is a count event, a delivery turn, a reset, a poll, a sequencer turn that performs
no command, or the performance of the next command. -/
theorem step_inversion {s t : State} (h : step s = .next t) :
    (s.nextTurn = .tick ∧ s.nextCommand = none ∧ s.polls = false ∧
      t = { s with turns := s.turns.tail }.tick) ∨
    (s.nextTurn = .deliver ∧ s.nextCommand = none ∧ s.polls = false ∧
      t = { s with turns := s.turns.tail }.deliver) ∨
    (s.nextTurn = .reset ∧ s.nextCommand = none ∧ s.polls = false ∧
      t = { s with turns := s.turns.tail }.resetEvent) ∨
    (s.nextTurn = .sequencer ∧ s.bw = .polling ∧ s.nextCommand = none ∧ s.polls = true ∧
      t = { s with turns := s.turns.tail }.poll) ∨
    (s.nextTurn = .sequencer ∧ s.bw = .idle ∧ s.nextCommand = none ∧ s.polls = false ∧
      t = { s with turns := s.turns.tail, port := s.port.tail }) ∨
    (∃ i, s.nextTurn = .sequencer ∧ s.bw = .idle ∧ s.nextCommand = some i ∧ s.polls = false ∧
      exec i { s with turns := s.turns.tail, port := s.port.tail } = .next t) := by
  rcases step_cases s with ⟨ht, e⟩ | ⟨ht, e⟩ | ⟨ht, e⟩ | ⟨ht, e⟩
  · rw [e] at h
    have hbw : s.takeTurn.bw = s.bw := rfl
    have hport : s.takeTurn.port = s.port := rfl
    rcases sequencerStep_cases s.takeTurn with
      ⟨hb, e'⟩ | ⟨hb, hp, e'⟩ | ⟨w, rest, er, hb, hp, hd, e'⟩ | ⟨w, rest, i, hb, hp, hd, e'⟩
    all_goals rw [e'] at h; rw [hbw] at hb
    · cases h
      exact .inr (.inr (.inr (.inl ⟨ht, hb, by simp [State.nextCommand, ht, hb], by simp [State.polls, ht, hb], rfl⟩)))
    · cases h; rw [hport] at hp
      exact .inr (.inr (.inr (.inr (.inl ⟨ht, hb, by simp [State.nextCommand, ht, hb, hp],
        by simp [State.polls, hb], by simp [State.takeTurn, hp]⟩))))
    · cases h; rw [hport] at hp
      exact .inr (.inr (.inr (.inr (.inl ⟨ht, hb, by simp [State.nextCommand, ht, hb, hp, hd],
        by simp [State.polls, hb], by simp [State.takeTurn, hp]⟩))))
    · rw [hport] at hp
      exact .inr (.inr (.inr (.inr (.inr ⟨i, ht, hb, by simp [State.nextCommand, ht, hb, hp, hd],
        by simp [State.polls, hb], by rw [← h]; simp [State.takeTurn, hp]⟩))))
  · rw [e] at h; cases h
    exact .inl ⟨ht, by simp [State.nextCommand, ht], by simp [State.polls, ht], rfl⟩
  · rw [e] at h; cases h
    exact .inr (.inl ⟨ht, by simp [State.nextCommand, ht], by simp [State.polls, ht], rfl⟩)
  · rw [e] at h; cases h
    exact .inr (.inr (.inl ⟨ht, by simp [State.nextCommand, ht], by simp [State.polls, ht], rfl⟩))

/-- What a command changes when it answers a next state: its own registers, and nothing else. -/
theorem exec_effect {i : Instr} {s t : State} (h : exec i s = .next t) :
    match i with
    | .enirq _ => { t with en := s.en } = s
    | .disirq _ => { t with en := s.en } = s
    | .setirqpri _ _ => { t with ipr := s.ipr } = s
    | .setexcpri _ _ => { t with pri1 := s.pri1, pri2 := s.pri2, pri3 := s.pri3 } = s
    | .getirqpri _ => ∃ v, t = { s with out := s.out ++ [.resp v] }
    | .getexcpri _ => ∃ v, t = { s with out := s.out ++ [.resp v] }
    | .rdreg sel => ∃ v, t = { s with
        out := s.out ++ [.resp v]
        tctrl := if sel = 0x50 then { s.tctrl with count := false } else s.tctrl }
    | .enexc k => t = { s with
        shc := t.shc
        tctrl := if k = 9 then { s.tctrl with inten := true, count := false } else s.tctrl }
    | .disexc k => t = { s with
        shc := t.shc
        tctrl := if k = 9 then { s.tctrl with inten := false, count := false } else s.tctrl }
    | .tinit _ => t = { s with
        tctrl := ⟨true, true, true, false⟩, tcurrent := 0, treload := t.treload, gie := true }
    | .tbusywait _ => t = { s with
        tctrl := ⟨true, false, true, false⟩, tcurrent := 0, treload := t.treload, bw := .polling }
    | .tdeinit => t = { s with tctrl := ⟨false, false, false, false⟩, tcurrent := 0, treload := 0 }
    | .tstart => t = { s with tctrl := { s.tctrl with enable := true, count := false } }
    | .tstop => t = { s with tctrl := { s.tctrl with enable := false, count := false } }
    | .setcb ref => t = { s with callback := ref }
    | .dispatch => t = { s with out := if s.callback = 0 then s.out else s.out ++ [.invoke s.callback] }
    | .enxcpt => t = { s with gie := true }
    | .disxcpt => t = { s with gie := false }
    | .enfault => t = { s with gfe := true }
    | .disfault => t = { s with gfe := false } := by
  cases i <;> simp only [exec] at h ⊢
  case enirq id =>
    cases h
    rcases s.setIrqEnable_cases id true with ⟨_, e⟩ | ⟨_, e⟩
    · rw [e]; rfl
    · rw [e]
  case disirq id =>
    cases h
    rcases s.setIrqEnable_cases id false with ⟨_, e⟩ | ⟨_, e⟩
    · rw [e]; rfl
    · rw [e]
  case setirqpri => unfold execSetirqpri at h; split at h <;> cases h <;> rfl
  case setexcpri =>
    unfold execSetexcpri at h
    split at h
    · cases h; rfl
    · rename_i R sh hh
      split at h <;> cases h
      cases R <;> rfl
  case getirqpri => unfold execGetirqpri at h; split at h <;> cases h <;> exact ⟨_, rfl⟩
  case getexcpri => unfold execGetexcpri at h; split at h <;> cases h <;> exact ⟨_, rfl⟩
  case rdreg sel =>
    cases h
    rcases s.afterRead_cases sel with ⟨h, e⟩ | ⟨h, e⟩ <;>
      simp only [State.regRead, e, h, if_true, if_false] <;> exact ⟨_, rfl⟩
  case enexc k =>
    cases h
    rcases s.setExcEnable_cases k true with ⟨h, e⟩ | ⟨h, e⟩ | ⟨h, e⟩ | ⟨h, e⟩ | ⟨h, h2, h3, h4, e⟩ <;>
      rw [e] <;> simp_all [State.setShc]
  case disexc k =>
    cases h
    rcases s.setExcEnable_cases k false with ⟨h, e⟩ | ⟨h, e⟩ | ⟨h, e⟩ | ⟨h, e⟩ | ⟨h, h2, h3, h4, e⟩ <;>
      rw [e] <;> simp_all [State.setShc]
  case tinit => unfold execTinit at h; split at h <;> cases h; rfl
  case tbusywait => unfold execTbusywait at h; split at h <;> cases h; rfl
  case tdeinit => cases h; rfl
  case tstart => cases h; exact s.ctrlSetBit_enable true
  case tstop => cases h; exact s.ctrlSetBit_enable false
  case dispatch => cases h; unfold State.invokeCallback; split <;> rfl
  all_goals cases h; rfl

/-! ### Runs -/

/-- A run whose first step answers a next state goes on from that state. -/
theorem core_run_of_step {s t : State} (h : step s = .next t) (k : Nat) :
    Sys2Proof.core.run (k + 1) s = Sys2Proof.core.run k t := by
  have h' : Sys2Proof.core.step s = .next t := h
  simp only [Host.Core.run, h']

/-- With a turn scheduled, a step is that turn on the state with the turn taken. -/
theorem step_of_turns {s : State} {u : Turn} {ts : List Turn} (h : s.turns = u :: ts) :
    step s = turnStep u { s with turns := ts } := by
  simp [step, State.nextTurn, State.takeTurn, h]

end Sys2Proof.Machine
end

