-- ==== Sys2Proof/Tests/Slice0.lean ====
section
/-! SUPPORT. The model's own tests: the well-formedness and decoding smoke tests, at most two one-step tests for each
command with results from the vectors of 95_test_vectors.md, the agents' steps, and for each statement of
Obligations.lean that has hypotheses a concrete state and operands that meet them. -/

namespace Sys2Proof.Tests

open Sys2Proof.Machine

/-! ### Helpers -/

/-- The next state of an outcome, if it is one. -/
def nextOf : Host.Outcome State Fault Refusal → Option State
  | .next s => some s
  | .fault _ => none
  | .refused _ => none

/-- The reason of a refusal, if the outcome is one. -/
def refusalOf : Host.Outcome State Fault Refusal → Option Refusal
  | .next _ => none
  | .fault _ => none
  | .refused r => some r

/-- The state after one command word presented to `s`. -/
def after (s : State) (w : CmdWord) : Option State := nextOf (step (s.present w))

/-- Why one command word presented to `s` is refused. -/
def refusal (s : State) (w : CmdWord) : Option Refusal := refusalOf (step (s.present w))

/-- The reset state with `t` ticks per millisecond. -/
def resetWith (t : Nat) : State := State.powerOn { Params.default with ticksPerMs := t }

/-- The reset state with a running timer about to expire, a callback, and both bits of the exception's path set. -/
def armed : State :=
  { State.reset with tctrl := ⟨true, true, true, true⟩, treload := 3, tcurrent := 1, callback := 0x20000101,
                     stPend := true }

/-- The reset state with a busy-wait polling. -/
def polling (count : Bool) : State :=
  { State.reset with tctrl := ⟨true, false, true, count⟩, treload := 3, tcurrent := 3, bw := .polling }

/-! ### WellFormed: an ill-formed command for each check -/

theorem test_wf_enirq : (Instr.enirq 256).wellFormed = false := by decide
theorem test_wf_disirq : (Instr.disirq 256).wellFormed = false := by decide
theorem test_wf_setirqpri_id : (Instr.setirqpri 256 0).wellFormed = false := by decide
theorem test_wf_setirqpri_pri : (Instr.setirqpri 0 256).wellFormed = false := by decide
theorem test_wf_getirqpri : (Instr.getirqpri 256).wellFormed = false := by decide
theorem test_wf_enexc : (Instr.enexc 256).wellFormed = false := by decide
theorem test_wf_disexc : (Instr.disexc 256).wellFormed = false := by decide
theorem test_wf_setexcpri_kind : (Instr.setexcpri 256 0).wellFormed = false := by decide
theorem test_wf_setexcpri_pri : (Instr.setexcpri 0 256).wellFormed = false := by decide
theorem test_wf_getexcpri : (Instr.getexcpri 256).wellFormed = false := by decide
theorem test_wf_tinit : (Instr.tinit (2 ^ 32)).wellFormed = false := by decide
theorem test_wf_tbusywait : (Instr.tbusywait (2 ^ 32)).wellFormed = false := by decide
theorem test_wf_rdreg : (Instr.rdreg 256).wellFormed = false := by decide
/-- Legal though meaningless operands are well formed (rule R51). -/
theorem test_wf_admits :
    (Instr.enirq 255).wellFormed = true ∧ (Instr.setexcpri 200 255).wellFormed = true ∧
    (Instr.tinit (2 ^ 32 - 1)).wellFormed = true := by decide

/-! ### Decoding: words written out from 30_encoding.md rules R49, R50, R52 and 95_test_vectors.md section 2.1 -/

theorem test_decode_irq :
    decode 0x0125000000000000#64 = .ok (.enirq 37) ∧
    decode 0x028A000000000000#64 = .ok (.disirq 138) ∧
    decode 0x0325020000000000#64 = .ok (.setirqpri 37 2) ∧
    decode 0x0389FF0000000000#64 = .ok (.setirqpri 137 255) ∧
    decode 0x0424000000000000#64 = .ok (.getirqpri 36) := by decide
theorem test_decode_exception :
    decode 0x0509000000000000#64 = .ok (.enexc 9) ∧
    decode 0x06FF000000000000#64 = .ok (.disexc 255) ∧
    decode 0x0709020000000000#64 = .ok (.setexcpri 9 2) ∧
    decode 0x08C8000000000000#64 = .ok (.getexcpri 200) := by decide
theorem test_decode_timer :
    decode 0x100000000000000A#64 = .ok (.tinit 10) ∧
    decode 0x10000000FFFFFFFF#64 = .ok (.tinit 4294967295) ∧
    decode 0x1100000000000000#64 = .ok .tdeinit ∧
    decode 0x1200000000000000#64 = .ok .tstart ∧
    decode 0x1300000000000000#64 = .ok .tstop ∧
    decode 0x1400000000000005#64 = .ok (.tbusywait 5) := by decide
theorem test_decode_callback_and_masks :
    decode 0x1800000020000101#64 = .ok (.setcb 0x20000101#32) ∧
    decode 0x1900000000000000#64 = .ok .dispatch ∧
    decode 0x2000000000000000#64 = .ok .enxcpt ∧
    decode 0x2100000000000000#64 = .ok .disxcpt ∧
    decode 0x2200000000000000#64 = .ok .enfault ∧
    decode 0x2300000000000000#64 = .ok .disfault ∧
    decode 0x30FF000000000000#64 = .ok (.rdreg 255) := by decide
theorem test_decode_unknown_opcode :
    decode 0x0000000000000000#64 = .error (.unknownOpcode 0x00) ∧
    decode 0x0900000000000000#64 = .error (.unknownOpcode 0x09) ∧
    decode 0x1500000000000000#64 = .error (.unknownOpcode 0x15) ∧
    decode 0xFF00000000000000#64 = .error (.unknownOpcode 0xFF) := by decide
theorem test_decode_must_be_zero :
    decode 0x0125010000000000#64 = .error (.mustBeZero 0x01) ∧
    decode 0x0125000000000001#64 = .error (.mustBeZero 0x01) ∧
    decode 0x0325020100000000#64 = .error (.mustBeZero 0x03) ∧
    decode 0x1100000000000001#64 = .error (.mustBeZero 0x11) ∧
    decode 0x1201000000000000#64 = .error (.mustBeZero 0x12) ∧
    decode 0x100100000000000A#64 = .error (.mustBeZero 0x10) ∧
    decode 0x100000010000000A#64 = .error (.mustBeZero 0x10) := by decide
/-- An illegal word changes nothing (rule R53). -/
theorem test_illegal_word_no_op : after armed 0x0125010000000000#64 = some armed := by decide

/-! ### One step of each command (95_test_vectors.md sections 2.2 to 2.10) -/

theorem test_enirq_138 :
    after State.reset 0x018A000000000000#64 = some { State.reset with en := #v[0, 0, 0, 0, 0x400] } := by decide
theorem test_enirq_139_ignored : after State.reset 0x018B000000000000#64 = some State.reset := by decide
theorem test_disirq_64_one_bit :
    after { State.reset with en := #v[0, 0, 0xFFFFFFFF, 0, 0] } 0x0240000000000000#64 =
      some { State.reset with en := #v[0, 0, 0xFFFFFFFE, 0, 0] } := by decide
theorem test_disirq_139_ignored :
    after { State.reset with en := #v[0, 0, 0, 0, 0xFFFFFFFF] } 0x028B000000000000#64 =
      some { State.reset with en := #v[0, 0, 0, 0, 0xFFFFFFFF] } := by decide
/-- 255 is truncated to 7 and the neighbouring lane is not touched. -/
theorem test_setirqpri_truncates :
    (after State.reset 0x0389FF0000000000#64).map (·.iprAt 34) = some 0x0000E000 := by decide
theorem test_setirqpri_keeps_lane :
    (after { State.reset with ipr := State.reset.ipr.set 1 0x1F1F1F1F } 0x0306070000000000#64).map (·.iprAt 1) =
      some 0x1FFF1F1F := by decide
theorem test_getirqpri_field :
    (after { State.reset with ipr := State.reset.ipr.set 9 0xFFFF5FFF } 0x0425000000000000#64).map (·.out) =
      some [.resp 2] := by decide
theorem test_getirqpri_no_field :
    (after { State.reset with ipr := State.reset.ipr.set 34 0xFFFFFFFF } 0x048B000000000000#64).map (·.out) =
      some [.resp 0] := by decide
theorem test_enexc_4 :
    after State.reset 0x0504000000000000#64 = some { State.reset with shc := 0x00020000 } := by decide
theorem test_enexc_9_clears_count :
    (after { State.reset with tctrl := ⟨true, false, true, true⟩ } 0x0509000000000000#64).map (·.tctrl.word) =
      some 0x00000007 := by decide
theorem test_disexc_4 :
    after { State.reset with shc := 0xFFFFFFFF } 0x0604000000000000#64 =
      some { State.reset with shc := 0xFFFDFFFF } := by decide
theorem test_disexc_9_keeps_pending :
    (after armed 0x0609000000000000#64).map (fun t => (t.tctrl.word, t.stPend)) = some (0x00000005, true) := by
  decide
/-- The defective mask of the reference code would give FFFFFE5F. -/
theorem test_setexcpri_mask_13 :
    after { State.reset with pri1 := 0xFFFFFFFF } 0x0704000000000000#64 =
      some { State.reset with pri1 := 0xFFFF1FFF } := by decide
theorem test_setexcpri_above_seven_refused :
    refusal State.reset 0x0704080000000000#64 = some .priorityAboveSeven ∧
    after State.reset 0x0700090000000000#64 = some State.reset := by decide
theorem test_getexcpri_9 :
    (after { State.reset with pri3 := 0x40000000 } 0x0809000000000000#64).map (·.out) = some [.resp 2] := by decide
theorem test_getexcpri_no_field :
    (after { State.reset with pri1 := 0xFFFFFFFF } 0x0802000000000000#64).map (·.out) = some [.resp 0] := by decide
theorem test_tinit_rearms :
    after { resetWith 4 with gie := false, tctrl := ⟨false, true, true, true⟩, tcurrent := 2, treload := 9,
                             stPend := true } 0x1000000000000001#64 =
      some { resetWith 4 with tctrl := ⟨true, true, true, false⟩, treload := 3, stPend := true } := by decide
theorem test_tinit_range :
    (after (resetWith 1) 0x1000000001000000#64).map (·.treload) = some 0xFFFFFF ∧
    refusal (resetWith 1) 0x1000000001000001#64 = some .reloadNotRepresentable ∧
    refusal (resetWith 1) 0x1000000000000000#64 = some .reloadNotRepresentable := by decide
theorem test_tdeinit :
    after armed 0x1100000000000000#64 =
      some { State.reset with callback := 0x20000101, stPend := true } := by decide
theorem test_tstart :
    (after { State.reset with tctrl := ⟨false, false, true, true⟩ } 0x1200000000000000#64).map (·.tctrl.word) =
      some 0x00000005 := by decide
theorem test_tstop :
    (after armed 0x1300000000000000#64).map (fun t => (t.tctrl.word, t.tcurrent)) = some (0x00000006, 1) := by decide
theorem test_tbusywait_arms :
    after { State.reset with gie := false, params := { Params.default with ticksPerMs := 16000 } }
        0x1400000000000005#64 =
      some { State.reset with gie := false, params := { Params.default with ticksPerMs := 16000 },
                              tctrl := ⟨true, false, true, false⟩, treload := 0x01387F, bw := .polling } := by decide
theorem test_tbusywait_refused :
    refusal (resetWith 16000) 0x1400000000000419#64 = some .reloadNotRepresentable := by decide
theorem test_setcb :
    after armed 0x1800000020000205#64 = some { armed with callback := 0x20000205 } := by decide
theorem test_dispatch_invokes :
    after armed 0x1900000000000000#64 = some { armed with out := [.invoke 0x20000101] } := by decide
theorem test_dispatch_empty : after State.reset 0x1900000000000000#64 = some State.reset := by decide
theorem test_enxcpt :
    after { armed with gie := false } 0x2000000000000000#64 = some armed := by decide
theorem test_disxcpt :
    after State.reset 0x2100000000000000#64 = some { State.reset with gie := false } := by decide
theorem test_enfault :
    after { State.reset with gfe := false } 0x2200000000000000#64 = some State.reset := by decide
theorem test_disfault :
    after State.reset 0x2300000000000000#64 = some { State.reset with gfe := false } := by decide
/-- The read of TCTRL responds with the flag and clears it. -/
theorem test_rdreg_tctrl :
    after armed 0x3050000000000000#64 =
      some { armed with tctrl := ⟨true, true, true, false⟩, out := [.resp 0x00010007] } := by decide
theorem test_rdreg_status :
    (after { State.reset with gfe := false, stPend := true } 0x3061000000000000#64).map (·.out) =
      some [.resp 0x00000005] := by decide

/-! ### The agents (95_test_vectors.md sections 2.6, 2.7, 2.11) -/

theorem test_tick_reloads :
    { armed with tcurrent := 0 }.tick = { armed with tcurrent := 3 } := by decide
theorem test_tick_expires :
    { armed with tctrl := ⟨true, true, false, false⟩, stPend := false }.tick =
      { armed with tctrl := ⟨true, true, false, true⟩, tcurrent := 0 } := by decide
theorem test_tick_no_pending_without_inten :
    ({ armed with tctrl := ⟨true, false, true, false⟩, stPend := false }.tick).stPend = false := by decide
theorem test_tick_stopped :
    { armed with tctrl := ⟨false, true, true, false⟩ }.tick = { armed with tctrl := ⟨false, true, true, false⟩ } := by
  decide
theorem test_deliver :
    armed.deliver = { armed with stPend := false, out := [.invoke 0x20000101] } := by decide
theorem test_deliver_masked : { armed with gie := false }.deliver = { armed with gie := false } := by decide
theorem test_poll_sees_nothing : nextOf (step (polling false)) = some (polling false) := by decide
theorem test_poll_ends_wait : nextOf (step (polling true)) = some State.reset := by decide
theorem test_reset_from_polling :
    nextOf (step { polling false with turns := [.reset] }) = some State.reset := by decide

/-! ### Witnesses: a concrete state and operands that meet the hypotheses of each statement that has some, at the
boundary values of each clause -/

/-- `armed` with one turn scheduled and one command word presented. -/
def offered (t : Turn) (w : CmdWord) : State := { armed with turns := [t], port := [w] }

theorem witness_DecodeOfEncode :
    (Instr.enirq 255).wellFormed = true ∧ (Instr.setirqpri 255 0).wellFormed = true ∧
    (Instr.tinit 4294967295).wellFormed = true ∧ Instr.tdeinit.wellFormed = true := by decide

theorem witness_EncodeOfDecode : decode 0x0389FF0000000000#64 = .ok (.setirqpri 137 255) := by decide

theorem witness_DecodeFollowsOpcodeTable :
    (⟨"SETIRQPRI", 0x03, .ab⟩ : OpcodeRow) ∈ opcodeTable ∧
    0x0389FF0000000000#64 &&& OpcodeRow.mask ⟨"SETIRQPRI", 0x03, .ab⟩ =
      OpcodeRow.matchBits ⟨"SETIRQPRI", 0x03, .ab⟩ := by decide

theorem witness_IllegalWordIsNoOp :
    (offered .sequencer 0x0125010000000000).nextTurn = .sequencer ∧
    (offered .sequencer 0x0125010000000000).bw = .idle ∧
    (offered .sequencer 0x0125010000000000).port = [0x0125010000000000] ∧
    ∀ row ∈ opcodeTable, 0x0125010000000000#64 &&& row.mask ≠ row.matchBits := by decide

theorem witness_StepRunsDecodedCommand :
    (offered .sequencer 0x1300000000000000).nextTurn = .sequencer ∧
    (offered .sequencer 0x1300000000000000).bw = .idle ∧
    (offered .sequencer 0x1300000000000000).port = [0x1300000000000000] ∧
    decode 0x1300000000000000 = .ok .tstop := by decide

theorem witness_StepRunsAgentOfTurn :
    (offered .tick 0).nextTurn = .tick ∧ (offered .deliver 0).nextTurn = .deliver ∧
    (offered .reset 0).nextTurn = .reset ∧
    ((polling true).nextTurn = .sequencer ∧ (polling true).bw = .polling) ∧
    (armed.nextTurn = .sequencer ∧ armed.bw = .idle ∧ armed.port = []) := by decide

theorem witness_PresentedWordRunsNext :
    decodeTableWord 64 0x1300000000000000 = some .tstop ∧ decodeTableWord 8 0 = none := by decide

/-- A step of each kind answers a next state: the hypothesis of every statement about all steps. -/
theorem witness_step_next :
    step (offered .sequencer 0x1900000000000000) = .next { armed with out := [.invoke 0x20000101] } ∧
    step (offered .tick 0) = .next { armed with tcurrent := 0, port := [0] } ∧
    step (offered .deliver 0) = .next { armed with stPend := false, out := [.invoke 0x20000101], port := [0] } ∧
    step (offered .reset 0) = .next { State.reset with port := [0] } ∧
    step (polling true) = .next State.reset ∧
    step armed = .next armed := ⟨rfl, rfl, rfl, rfl, rfl, rfl⟩

theorem witness_StepConsumesInputsInOrder :
    step { offered .sequencer 0x1300000000000000 with turns := [.sequencer, .tick], port := [0x1300000000000000, 0] } =
      .next { armed with tctrl := ⟨false, true, true, false⟩, turns := [.tick], port := [0] } := rfl

theorem witness_OnlyThreeCommandsRefuse :
    (nextOf (exec (.tinit 1) (resetWith 1))).isSome = true ∧
    (nextOf (exec (.tbusywait 16777216) (resetWith 1))).isSome = true ∧
    refusalOf (exec (.tinit 16777217) (resetWith 1)) = some .reloadNotRepresentable ∧
    refusalOf (exec (.tbusywait 0) (resetWith 1)) = some .reloadNotRepresentable ∧
    refusalOf (exec (.setexcpri 3 8) armed) = some .priorityAboveSeven ∧
    (nextOf (exec (.setexcpri 9 7) armed)).isSome = true ∧ (nextOf (exec (.setexcpri 10 8) armed)).isSome = true := by
  decide

theorem witness_FieldPrimitiveLaws :
    fieldExtract (fieldInsert 0xFFFFFFFF 29 0b010#3) 29 = 0b010#3 ∧
    fieldInsert 0xFFFFFFFF 29 0b010#3 = 0x5FFFFFFF#32 := by decide

theorem witness_IrqEnableBitPlacement :
    irqEnLocate 0 = (0, 0) ∧ irqEnLocate 138 = (4, 10) ∧ irqEnLocate 139 = (4, 11) ∧ irqEnLocate 159 = (4, 31) := by
  decide

theorem witness_IrqPriorityFieldPlacement :
    irqPriLocate 0 = (0, 5) ∧ irqPriLocate 3 = (0, 29) ∧ irqPriLocate 138 = (34, 21) := by decide

theorem witness_ExceptionPriorityTable :
    excPriLocate 2 = none ∧ excPriLocate 3 = some (.pri1, 5) ∧ excPriLocate 9 = some (.pri3, 29) ∧
    excPriLocate 10 = none := by decide

theorem witness_ExceptionEnableTable :
    excEnLocate 2 = none ∧ excEnLocate 6 = none ∧ excEnLocate 8 = none ∧ excEnLocate 10 = none := by decide

/-- The boundary identifiers of `ENIRQ` and `DISIRQ`. -/
theorem witness_EnirqSetsItsLineOnly :
    nextOf (exec (.enirq 138) State.reset) = some { State.reset with en := #v[0, 0, 0, 0, 0x400] } ∧
    nextOf (exec (.enirq 139) State.reset) = some State.reset := by decide

theorem witness_DisirqClearsItsLineOnly :
    nextOf (exec (.disirq 138) { State.reset with en := #v[0, 0, 0, 0, 0x401] }) =
      some { State.reset with en := #v[0, 0, 0, 0, 1] } ∧
    nextOf (exec (.disirq 255) armed) = some armed := by decide

theorem witness_IrqEnableRoundTrip :
    State.reset.irqEn 138 = false ∧ { State.reset with en := #v[0, 0, 0, 0, 0x400] }.irqEn 138 = true := by decide

theorem witness_SetirqpriWritesItsFieldOnly :
    (nextOf (exec (.setirqpri 138 7) State.reset)).map (·.iprAt 34) = some 0x00E00000 ∧
    nextOf (exec (.setirqpri 139 7) State.reset) = some State.reset := by decide

theorem witness_GetirqpriRespondsItsField :
    (nextOf (exec (.getirqpri 138) { State.reset with ipr := State.reset.ipr.set 34 0x00E00000 })).map (·.out) =
      some [.resp 7] ∧
    nextOf (exec (.getirqpri 139) armed) = some { armed with out := [.resp 0] } := by decide

theorem witness_IrqPriorityReadBack :
    (nextOf (exec (.setirqpri 138 255) State.reset)).map (fun t => (t.irqPri 138, t.irqPri 137)) =
      some (7#3, 0#3) := by decide

/-- The boundary kinds of `ENEXC` and `DISEXC`. -/
theorem witness_EnexcSetsItsEnableOnly :
    (nextOf (exec (.enexc 3) armed)).map (·.shc) = some 0x00010000 ∧
    (nextOf (exec (.enexc 5) armed)).map (·.shc) = some 0x00040000 ∧
    nextOf (exec (.enexc 2) armed) = some armed ∧ nextOf (exec (.enexc 8) armed) = some armed ∧
    nextOf (exec (.enexc 10) armed) = some armed := by decide

theorem witness_DisexcClearsItsEnableOnly :
    (nextOf (exec (.disexc 3) { armed with shc := 0x00070000 })).map (·.shc) = some 0x00060000 ∧
    (nextOf (exec (.disexc 9) armed)).map (·.tctrl.inten) = some false ∧
    nextOf (exec (.disexc 6) armed) = some armed := by decide

theorem witness_ExceptionEnableView :
    excEnLocate 3 ≠ none ∧ excEnLocate 9 ≠ none ∧ excEnLocate 2 = none ∧ excEnLocate 10 = none ∧
    (nextOf (exec (.enexc 5) armed)).map (fun t => (t.excEn 5, t.excEn 4, t.excEn 9, t.excEn 6)) =
      some (some true, some false, some true, none) := by decide

/-- The boundary kinds and priorities of `SETEXCPRI`: the hypotheses of the three statements about it. -/
theorem witness_SetexcpriWritesItsFieldOnly :
    excPriLocate 9 = some (.pri3, 29) ∧
    (nextOf (exec (.setexcpri 9 7) State.reset)).map (·.pri3) = some 0xE0000000 ∧
    refusalOf (exec (.setexcpri 9 8) State.reset) = some .priorityAboveSeven ∧
    excPriLocate 10 = none ∧ nextOf (exec (.setexcpri 10 8) State.reset) = some State.reset := by decide

theorem witness_UniformClearingMask :
    excPriLocate 8 = some (.pri3, 21) ∧
    (nextOf (exec (.setexcpri 8 0) { State.reset with pri3 := 0xFFFFFFFF })).map (·.pri3) = some 0xFF1FFFFF := by
  decide

theorem witness_GetexcpriRespondsItsField :
    excPriLocate 6 = some (.pri2, 29) ∧
    (nextOf (exec (.getexcpri 6) { State.reset with pri2 := 0xFFFFFFFF })).map (·.out) = some [.resp 7] ∧
    excPriLocate 200 = none := by decide

theorem witness_ExceptionPriorityReadBack :
    (nextOf (exec (.setexcpri 3 7) State.reset)).map (fun t => (t.excPri 3, t.excPri 4)) =
      some (some 7#3, some 0#3) ∧
    (nextOf (exec (.setexcpri 9 0) State.reset)).isSome = true := by decide

theorem witness_TinitArmsPeriodicTimer :
    (nextOf (exec (.tinit 1) (resetWith 1))).map (·.treload) = some 0 ∧
    (nextOf (exec (.tinit 16777216) (resetWith 1))).map (·.treload) = some 0xFFFFFF ∧
    (nextOf (exec (.tinit 16777217) (resetWith 1))).isNone = true ∧
    (nextOf (exec (.tinit 0) (resetWith 1))).isNone = true := by decide

theorem witness_TinitUnmasksGlobally :
    1 ≤ 1 * { resetWith 1 with gie := false }.params.ticksPerMs ∧
    16777216 * { resetWith 1 with gie := false }.params.ticksPerMs ≤ 2 ^ 24 ∧
    (nextOf (exec (.tinit 1) { resetWith 1 with gie := false })).map (·.gie) = some true := by decide

theorem witness_TbusywaitArmsAndCloses :
    (nextOf (exec (.tbusywait 1) (resetWith 1))).map (·.bw) = some .polling ∧
    (nextOf (exec (.tbusywait 16777216) (resetWith 1))).map (·.treload) = some 0xFFFFFF ∧
    refusalOf (exec (.tbusywait 16777217) (resetWith 1)) = some .reloadNotRepresentable := by decide

theorem witness_PollEndsWaitWhenFlagSeen :
    (polling true).nextTurn = .sequencer ∧ (polling true).bw = .polling ∧ (polling true).tctrl.count = true ∧
    (polling false).nextTurn = .sequencer ∧ (polling false).bw = .polling ∧ (polling false).tctrl.count = false := by
  decide

/-- The state a busy-wait of one millisecond starts from, with the turns scheduled after it. -/
def waiting (ticksPerMs : Nat) (turns : List Turn) : State :=
  { resetWith ticksPerMs with turns := turns, port := [0x1900000000000000] }

/-- The state its arming step leaves. -/
def waitingArmed (ticksPerMs : Nat) (reload : Count) (turns : List Turn) : State :=
  { waiting ticksPerMs turns with tctrl := ⟨true, false, true, false⟩, treload := reload, bw := .polling }

theorem witness_BusyWaitEndsAfterItsTicks :
    exec (.tbusywait 1) (waiting 2 ([.tick, .sequencer] ++ .tick :: ([.tick] ++ .sequencer :: [.deliver]))) =
      .next (waitingArmed 2 1 [.tick, .sequencer, .tick, .tick, .sequencer, .deliver]) ∧
    2 ≤ 1 * (waiting 2 []).params.ticksPerMs ∧
    Turn.reset ∉ [Turn.tick, Turn.sequencer] ∧
    [Turn.tick, Turn.sequencer].count .tick + 1 = 1 * (waiting 2 []).params.ticksPerMs ∧
    Turn.reset ∉ [Turn.tick] ∧ Turn.sequencer ∉ [Turn.tick] :=
  ⟨rfl, by decide, by decide, by decide, by decide, by decide⟩

theorem witness_BusyWaitCanHang :
    (exec (.tbusywait 1) (waiting 2 [.deliver]) = .next (waitingArmed 2 1 [.deliver]) ∧
      Turn.reset ∉ [Turn.deliver] ∧ Turn.tick ∉ [Turn.deliver]) ∧
    (exec (.tbusywait 1) (waiting 1 [.tick]) = .next (waitingArmed 1 0 [.tick]) ∧
      Turn.reset ∉ [Turn.tick] ∧ 1 * (waiting 1 []).params.ticksPerMs = 1) :=
  ⟨⟨rfl, by decide, by decide⟩, rfl, by decide, by decide⟩

/-- The callback registered and empty. -/
theorem witness_DispatchInvokesCallbackOnce : armed.callback ≠ 0 ∧ State.reset.callback = 0 := by decide

theorem witness_RdregRespondsAndClearsCount :
    (nextOf (exec (.rdreg 0x50) armed)).map (·.tctrl.count) = some false ∧
    (nextOf (exec (.rdreg 0x51) armed)).map (fun t => (t.tctrl.count, t.out)) = some (true, [.resp 3]) := by decide

theorem witness_SelectorMapReads :
    armed.regWord 0x04 = 0 ∧ armed.regWord 0x05 = 0 ∧ armed.regWord 0x60 = 0x20000101 ∧ armed.regWord 0x62 = 0 ∧
    { armed with en := #v[1, 2, 3, 4, 5] }.regWord 0x0C = 5 ∧
    { armed with ipr := armed.ipr.set 34 7 }.regWord 0x32 = 7 ∧ armed.regWord 0x33 = 0 := by decide

theorem witness_TickCountsFlagsPends :
    State.reset.tctrl.enable = false ∧
    ({ armed with tcurrent := 0 }.tctrl.enable = true ∧ { armed with tcurrent := 0 }.tcurrent = 0) ∧
    (armed.tctrl.enable = true ∧ armed.tcurrent = 1) ∧ 2 ≤ { armed with tcurrent := 2 }.tcurrent.toNat := by decide

theorem witness_TimerPeriodIsReloadPlusOne :
    ({ armed with tcurrent := 0 }.tctrl.enable = true ∧ { armed with tcurrent := 0 }.tcurrent = 0 ∧
      1 ≤ { armed with tcurrent := 0 }.treload.toNat) ∧
    ({ armed with tcurrent := 0, treload := 0 }.tctrl.enable = true ∧
      { armed with tcurrent := 0, treload := 0 }.treload = 0) ∧
    (armed.tctrl.enable = true ∧ 0 < armed.tcurrent.toNat ∧ 1 = armed.tcurrent.toNat) := by decide

theorem witness_DeliverTakesTimerException :
    (armed.stPend = true ∧ armed.gie = true ∧ armed.callback ≠ 0) ∧
    { armed with callback := 0 }.callback = 0 ∧ { armed with gie := false }.gie = false ∧
    { armed with stPend := false }.stPend = false := by decide

theorem witness_ExpiriesCoalesce : armed.stPend = true ∧ armed.gie = true ∧ armed.callback ≠ 0 := by decide

theorem witness_CallbackRaceBothOrders :
    armed.stPend = true ∧ armed.gie = true ∧ armed.callback ≠ 0 ∧ (0x20000205 : Word) ≠ 0 := by decide

/-- An expiry that sets the count flag and the pending bit, and a `TDEINIT` that clears the first and keeps the
second. -/
theorem witness_CountFlagLifecycle :
    step { armed with tctrl := ⟨true, true, true, false⟩, stPend := false, turns := [.tick] } =
      .next { armed with tcurrent := 0 } ∧
    step (offered .sequencer 0x1100000000000000) =
      .next { State.reset with callback := 0x20000101, stPend := true } := ⟨rfl, rfl⟩

theorem witness_PendingBitLifecycle :
    step (offered .deliver 0) = .next { armed with stPend := false, out := [.invoke 0x20000101], port := [0] } := rfl

theorem witness_BusyWaitLifecycle :
    step { resetWith 2 with port := [0x1400000000000001] } = .next (resetWith 2 |> fun s =>
      { s with tctrl := ⟨true, false, true, false⟩, treload := 1, bw := .polling }) := rfl

theorem witness_CallbackAndMaskWriters :
    step (offered .sequencer 0x1800000020000205) = .next { armed with callback := 0x20000205 } ∧
    step (offered .reset 0) = .next { State.reset with port := [0] } := ⟨rfl, rfl⟩

theorem witness_ControllerRegisterWriters :
    step (offered .sequencer 0x0504000000000000) = .next { armed with shc := 0x00020000 } ∧
    (offered .sequencer 0x0504000000000000).nextTurn ≠ .reset := ⟨rfl, by decide⟩

theorem witness_TimerRegisterWriters :
    step (offered .sequencer 0x1300000000000000) = .next { armed with tctrl := ⟨false, true, true, false⟩ } ∧
    (offered .sequencer 0x1300000000000000).nextTurn ≠ .reset ∧
    (offered .sequencer 0x1300000000000000).polls = false ∧
    (offered .sequencer 0x1300000000000000).nextCommand = some .tstop := ⟨rfl, by decide, by decide, by decide⟩

theorem witness_EventsOfAStep :
    step (offered .sequencer 0x3051000000000000) = .next { armed with out := [.resp 3] } ∧
    (offered .deliver 0).delivers = true ∧
    (offered .sequencer 0x1900000000000000).nextCommand = some .dispatch := ⟨rfl, by decide, by decide⟩

/-- The invariant holds in a polling state with a counting timer, and the step from it goes on. -/
theorem witness_StepKeepsInvariant :
    (polling false).Inv ∧ armed.Inv ∧ step (polling false) = .next (polling false) :=
  ⟨by decide, by decide, rfl⟩

theorem witness_ResetLeavesPowerOnState : (offered .reset 0x1300000000000000).nextTurn = .reset := by decide

/-- Two different states with one timer path. -/
theorem witness_TimerPathIgnoresPriorities :
    { armed with pri3 := 0x40000000, gfe := false }.timerPath = armed.timerPath ∧
    { armed with pri3 := 0x40000000, gfe := false } ≠ armed := by decide

end Sys2Proof.Tests
end

section
/-! PROOFS. Scope (00_scope.md): what refuses (rule R10), the laws of the field primitives (rule R8), and the events of
a step (rule R11). -/

namespace Sys2Proof.Machine

/-! ### Which commands refuse -/

/-- `ReloadOk` as the bounds of rule R74. -/
theorem reloadOk_iff (dur t : Nat) : reloadOk dur t = true ↔ 1 ≤ dur * t ∧ dur * t ≤ 2 ^ 24 := by
  simp only [reloadOk, decide_eq_true_eq]

/-- The kinds with a priority field are 3 to 9 (rule R69). -/
theorem excPriLocate_eq_none_iff (kind : Nat) : excPriLocate kind = none ↔ ¬(3 ≤ kind ∧ kind ≤ 9) := by
  match kind with
  | 0 | 1 | 2 | 3 | 4 | 5 | 6 | 7 | 8 | 9 => decide
  | n + 10 => exact iff_of_true rfl (by omega)

/-- An arming command, whatever state `u` it arms to, goes through exactly on a representable reload value (rule
R74). -/
theorem outcome_of_reloadOk_guard {dur : Nat} {s u : State} {out : Host.Outcome State Fault Refusal}
    (hout : out = if reloadOk dur s.params.ticksPerMs then .next u else .refused .reloadNotRepresentable) :
    if 1 ≤ dur * s.params.ticksPerMs ∧ dur * s.params.ticksPerMs ≤ 2 ^ 24 then ∃ t, out = .next t
    else out = .refused .reloadNotRepresentable := by
  simp only [reloadOk_iff] at hout
  split <;> rename_i hbounds
  · exact ⟨u, hout.trans (if_pos hbounds)⟩
  · exact hout.trans (if_neg hbounds)

/-- `SETEXCPRI` refuses exactly a priority above 7 for a kind with a field; the kind test comes first (rule R70). -/
theorem execSetexcpri_outcome (kind pri : Nat) (s : State) :
    if 3 ≤ kind ∧ kind ≤ 9 ∧ 7 < pri then execSetexcpri kind pri s = .refused .priorityAboveSeven
    else ∃ t, execSetexcpri kind pri s = .next t := by
  have hkind := excPriLocate_eq_none_iff kind
  rw [execSetexcpri]
  cases hloc : excPriLocate kind with
  | none =>
    have hout := hkind.mp hloc
    rw [if_neg fun ⟨h3, h9, _⟩ => hout ⟨h3, h9⟩]
    exact ⟨_, rfl⟩
  | some loc =>
    have ⟨h3, h9⟩ : 3 ≤ kind ∧ kind ≤ 9 := by simpa [hloc] using hkind
    by_cases hpri : 7 < pri
    · rw [if_pos ⟨h3, h9, hpri⟩]
      exact if_pos hpri
    · rw [if_neg fun ⟨_, _, hp⟩ => hpri hp]
      exact ⟨_, if_neg hpri⟩

/-- `SETIRQPRI` has a next state on either side of the identifier test (rule R63). -/
theorem execSetirqpri_next (id pri : Nat) (s : State) : ∃ t, execSetirqpri id pri s = .next t := by
  unfold execSetirqpri
  split <;> exact ⟨_, rfl⟩

/-- `GETIRQPRI` has a next state on either side of the identifier test (rule R64). -/
theorem execGetirqpri_next (id : Nat) (s : State) : ∃ t, execGetirqpri id s = .next t := by
  unfold execGetirqpri
  split <;> exact ⟨_, rfl⟩

/-- `GETEXCPRI` has a next state for a kind with and without a field (rule R71). -/
theorem execGetexcpri_next (kind : Nat) (s : State) : ∃ t, execGetexcpri kind s = .next t := by
  unfold execGetexcpri
  split <;> exact ⟨_, rfl⟩

/-- Settles O10: the three commands with a guard by the lemma that says both its outcomes; the three other commands with
a branch answer a next state on each side, and the rest are a next state by definition. -/
theorem onlyThreeCommandsRefuse : Obligations.OnlyThreeCommandsRefuse := by
  unfold Obligations.OnlyThreeCommandsRefuse
  intro i s
  cases i with
  | tinit dur => exact outcome_of_reloadOk_guard rfl
  | tbusywait dur => exact outcome_of_reloadOk_guard rfl
  | setexcpri kind pri => exact execSetexcpri_outcome kind pri s
  | setirqpri id pri => exact execSetirqpri_next id pri s
  | getirqpri id => exact execGetirqpri_next id s
  | getexcpri kind => exact execGetexcpri_next kind s
  | enirq | disirq | enexc | disexc | tdeinit | tstart | tstop | setcb | dispatch | enxcpt | disxcpt | enfault
  | disfault | rdreg => exact ⟨_, rfl⟩

/-! ### The laws of the field primitives -/

/-- A field read is the quotient by the field's weight, modulo 8. -/
theorem fieldExtract_toNat (r : Word) (s : Nat) : (fieldExtract r s).toNat = r.toNat / 2 ^ s % 8 := by
  rw [fieldExtract, BitVec.extractLsb'_toNat, Nat.shiftRight_eq_div_pow]
  rfl

/-- Reading a field that lies in the register gives the value written to it. -/
theorem fieldExtract_fieldInsert (r : Word) (s : Nat) (p : BitVec 3) (hs : s ≤ 29) :
    fieldExtract (fieldInsert r s p) s = p := by
  apply BitVec.eq_of_getLsbD_eq
  intro j hj
  have hj3 : j < 3 := hj
  have hfield : s ≤ s + j ∧ s + j < s + 3 ∧ s + j < 32 := by omega
  rw [fieldExtract_getLsbD, fieldInsert_getLsbD, if_pos hfield, Nat.add_sub_cancel_left, decide_eq_true hj3,
    Bool.true_and]

/-- A field write keeps every bit outside the field's mask. -/
theorem fieldInsert_and_not_fieldMask (r : Word) (s : Nat) (p : BitVec 3) :
    fieldInsert r s p &&& ~~~fieldMask s = r &&& ~~~fieldMask s := by
  apply BitVec.eq_of_getLsbD_eq
  intro j _
  simp only [BitVec.getLsbD_and, BitVec.getLsbD_not, fieldInsert_getLsbD, fieldMask_getLsbD]
  by_cases hfield : s ≤ j ∧ j < s + 3 ∧ j < 32 <;> simp [hfield]

/-- The second of two writes to one field decides. -/
theorem fieldInsert_fieldInsert (r : Word) (s : Nat) (p q : BitVec 3) :
    fieldInsert (fieldInsert r s p) s q = fieldInsert r s q := by
  apply BitVec.eq_of_getLsbD_eq
  intro j _
  simp only [fieldInsert_getLsbD]
  by_cases hfield : s ≤ j ∧ j < s + 3 ∧ j < 32
  · simp only [if_pos hfield]
  · simp only [if_neg hfield]

/-- Settles O11, bit by bit from what a field write and a field read do to each bit. -/
theorem fieldPrimitiveLaws : Obligations.FieldPrimitiveLaws := by
  unfold Obligations.FieldPrimitiveLaws
  intro r s p q hs
  refine ⟨fun j hj => ?_, fieldExtract_toNat r s, fieldExtract_fieldInsert r s p hs,
    fieldInsert_and_not_fieldMask r s p, fieldInsert_fieldInsert r s p q⟩
  rw [fieldMask_getLsbD, decide_eq_decide]
  omega

/-! ### The events of a step -/

/-- A count event emits nothing. -/
@[simp] theorem State.tick_out (s : State) : s.tick.out = s.out := by
  rcases s.tick_cases with ⟨_, e⟩ | ⟨_, _, e⟩ | ⟨_, _, e⟩ | ⟨_, _, _, e⟩ <;> rw [e]

/-- A poll emits nothing. -/
@[simp] theorem State.poll_out (s : State) : s.poll.out = s.out := by
  rw [s.poll_eq]
  split <;> rfl

/-- A turn of `DELIVER` that is not enabled emits nothing (rule R97). -/
theorem State.deliver_out_of_disabled {s : State} (h : ¬(s.stPend = true ∧ s.gie = true)) :
    s.deliver.out = s.out := by
  rcases s.deliver_cases with ⟨_, e⟩ | ⟨hp, hg, _⟩ | ⟨hp, hg, _⟩
  · rw [e]
  · exact absurd ⟨hp, hg⟩ h
  · exact absurd ⟨hp, hg⟩ h

/-- An enabled delivery emits the one invocation of a registered callback (rules R84, R97). -/
theorem State.deliver_out_of_enabled {s : State} (hp : s.stPend = true) (hg : s.gie = true) :
    s.deliver.out = if s.callback = 0 then s.out else s.out ++ [.invoke s.callback] := by
  rcases s.deliver_cases with ⟨hn, _⟩ | ⟨_, _, hc, e⟩ | ⟨_, _, hc, e⟩
  · exact absurd ⟨hp, hg⟩ hn
  · rw [e, if_pos hc]
  · rw [e, if_neg hc]

/-- Only a turn of `DELIVER` delivers. -/
theorem State.delivers_eq_false {s : State} (h : s.nextTurn ≠ .deliver) : s.delivers = false := by
  simp [State.delivers, h]

/-- In a turn of `DELIVER`, it delivers exactly when the exception is pending and not masked. -/
theorem State.delivers_iff {s : State} (h : s.nextTurn = .deliver) :
    s.delivers = true ↔ s.stPend = true ∧ s.gie = true := by
  simp [State.delivers, h]

/-- The events a command emits: the response of a reading command, the invocation of `DISPATCH`, or nothing. -/
theorem exec_out {i : Instr} {s t : State} (h : exec i s = .next t) :
    match i with
    | .dispatch => t.out = if s.callback = 0 then s.out else s.out ++ [.invoke s.callback]
    | .getirqpri _ => ∃ v, t.out = s.out ++ [.resp v]
    | .getexcpri _ => ∃ v, t.out = s.out ++ [.resp v]
    | .rdreg _ => ∃ v, t.out = s.out ++ [.resp v]
    | _ => t.out = s.out := by
  have effect := exec_effect h
  cases i with
  | getirqpri | getexcpri | rdreg =>
    obtain ⟨v, e⟩ := effect
    exact ⟨v, congrArg State.out e⟩
  | enirq | disirq | setirqpri | setexcpri | enexc | disexc | tinit | tbusywait | tdeinit | tstart | tstop | setcb
  | dispatch | enxcpt | disxcpt | enfault | disfault =>
    simpa only using congrArg State.out effect

/-- Settles O55, by the kinds of step: a tick, a reset, a poll and a turn that performs no command emit nothing, a turn
of `DELIVER` what the delivery emits, and a command its own events. -/
theorem eventsOfAStep : Obligations.EventsOfAStep := by
  unfold Obligations.EventsOfAStep
  intro s t h
  rcases step_inversion h with ⟨hturn, hcmd, _, rfl⟩ | ⟨hturn, hcmd, _, rfl⟩ | ⟨hturn, hcmd, _, rfl⟩ |
    ⟨hturn, _, hcmd, _, rfl⟩ | ⟨hturn, _, hcmd, _, rfl⟩ | ⟨i, hturn, _, hcmd, _, hexec⟩
  case inr.inl =>
    by_cases henabled : s.stPend = true ∧ s.gie = true
    · obtain ⟨hpend, hgie⟩ := henabled
      rw [if_pos (.inl ((State.delivers_iff hturn).mpr ⟨hpend, hgie⟩))]
      exact State.deliver_out_of_enabled hpend hgie
    · have hdel : ¬s.delivers = true := fun hd => henabled ((State.delivers_iff hturn).mp hd)
      simp only [hdel, hcmd, reduceCtorEq, or_self, if_false]
      exact State.deliver_out_of_disabled henabled
  case inr.inr.inr.inr.inr =>
    have hdel : s.delivers = false := State.delivers_eq_false (by simp [hturn])
    have hout := exec_out hexec
    cases i <;> simpa [hdel, hcmd] using hout
  all_goals
    have hdel : s.delivers = false := State.delivers_eq_false (by simp [hturn])
    simp [hdel, hcmd]

end Sys2Proof.Machine
end

section
/-! PROOFS. State (10_state.md): how a step runs its agent (rule R12), the views of the exception enables (rule R29),
who writes each state element (rules R15 to R28, R30), the values after reset (rule R31) and the invariant (rule R32). -/

namespace Sys2Proof.Machine

/-! ### How a step runs -/

/-- A step runs the agent that has the turn, on the state with that turn taken. -/
theorem step_of_nextTurn {s : State} {u : Turn} (h : s.nextTurn = u) :
    step s = turnStep u { s with turns := s.turns.tail } := by
  subst h
  rfl

/-- While a busy-wait is polling, the sequencer polls (rule R80). -/
theorem sequencerStep_of_polling {s : State} (hbw : s.bw = .polling) : sequencerStep s = .next s.poll := by
  simp only [sequencerStep, hbw]

/-- With an open port and no word presented, the sequencer does nothing (log entry 2). -/
theorem sequencerStep_of_no_word {s : State} (hbw : s.bw = .idle) (hport : s.port = []) :
    sequencerStep s = .next s := by
  rw [sequencerStep, hbw, hport]

/-- With an open port, the sequencer takes the oldest word and runs the command it decodes to (rule R14). -/
theorem sequencerStep_of_command {s : State} {w : CmdWord} {rest : List CmdWord} {i : Instr} (hbw : s.bw = .idle)
    (hport : s.port = w :: rest) (hdec : decode w = .ok i) :
    sequencerStep s = exec i { s with port := rest } := by
  simp only [sequencerStep, hbw, hport, perform, hdec, State.takeCommand, List.tail_cons]

/-- Settles O6, from the steps of the sequencer. -/
theorem stepRunsDecodedCommand : Obligations.StepRunsDecodedCommand := by
  unfold Obligations.StepRunsDecodedCommand
  intro s w rest i hturn hbw hport hdec
  exact (step_of_nextTurn hturn).trans (sequencerStep_of_command hbw hport hdec)

/-- Settles O7, from the turns and the steps of the sequencer. -/
theorem stepRunsAgentOfTurn : Obligations.StepRunsAgentOfTurn := by
  unfold Obligations.StepRunsAgentOfTurn
  intro s
  refine ⟨step_of_nextTurn, step_of_nextTurn, step_of_nextTurn, fun hturn hbw => ?_, fun hturn hbw hport => ?_⟩
  · exact (step_of_nextTurn hturn).trans (sequencerStep_of_polling hbw)
  · exact (step_of_nextTurn hturn).trans (sequencerStep_of_no_word hbw hport)

/-- A command read from a table word is what the decoder makes of that word. -/
theorem decode_tableWord {nbits w : Nat} {i : Instr} (h : decodeTableWord nbits w = some i) :
    decode (tableWord nbits w) = .ok i := by
  unfold decodeTableWord at h
  split at h
  · next hdec => rw [hdec, Option.some.inj h]
  · cases h

/-- Settles O8: the presented word is the oldest of an open port in the sequencer's turn, which is the case of O6. -/
theorem presentedWordRunsNext : Obligations.PresentedWordRunsNext := by
  unfold Obligations.PresentedWordRunsNext
  intro s nbits w i h
  exact stepRunsDecodedCommand (s.withFetchWord nbits w) (tableWord nbits w) s.port i rfl rfl rfl (decode_tableWord h)

/-! ### The views of the exception enables -/

/-- The view `exc_en` of every kind (rules R29, R66). -/
theorem State.excEn_eq (s : State) (kind : Nat) :
    s.excEn kind =
      if kind = 3 then some (s.shc.getLsbD 16) else if kind = 4 then some (s.shc.getLsbD 17)
      else if kind = 5 then some (s.shc.getLsbD 18) else if kind = 9 then some s.tctrl.inten else none := by
  match kind with
  | 0 | 1 | 2 | 3 | 4 | 5 | 6 | 7 | 8 | 9 => rfl
  | n + 10 => rfl

/-- Writing the enable of a kind sets the view of that kind, if it has one, and keeps the view of every other kind. -/
theorem State.excEn_setExcEnable (s : State) (kind kind' : Nat) (b : Bool) :
    (s.setExcEnable kind b).excEn kind' =
      if kind' = kind then (s.excEn kind).map (fun _ => b) else s.excEn kind' := by
  by_cases heq : kind' = kind
  · subst heq
    rw [if_pos rfl]
    rcases s.setExcEnable_cases kind' b with ⟨hk, e⟩ | ⟨hk, e⟩ | ⟨hk, e⟩ | ⟨hk, e⟩ | ⟨h3, h4, h5, h9, e⟩
    case inr.inr.inr.inr => simp [e, State.excEn_eq, h3, h4, h5, h9]
    all_goals
      subst hk
      rw [e]
      simp [State.excEn_eq, -BitVec.getLsbD_eq_getElem]
  · rw [if_neg heq]
    rcases s.setExcEnable_cases kind b with ⟨hk, e⟩ | ⟨hk, e⟩ | ⟨hk, e⟩ | ⟨hk, e⟩ | ⟨_, _, _, _, e⟩
    case inr.inr.inr.inr => rw [e]
    all_goals
      subst hk
      rw [e]
      simp [State.excEn_eq, heq, -BitVec.getLsbD_eq_getElem]

/-- The kinds with a view are those with an enable bit. -/
theorem State.excEn_eq_none_iff (s : State) (kind : Nat) : s.excEn kind = none ↔ excEnLocate kind = none := by
  unfold State.excEn
  split <;> simp_all only [reduceCtorEq]

/-- Settles O24, both commands being a write of the kind's enable. -/
theorem exceptionEnableView : Obligations.ExceptionEnableView := by
  unfold Obligations.ExceptionEnableView
  intro kind s
  refine ⟨fun hloc => ?_, (s.excEn_eq_none_iff kind).mpr⟩
  obtain ⟨v, hview⟩ := Option.ne_none_iff_exists'.mp (mt (s.excEn_eq_none_iff kind).mp hloc)
  refine ⟨s.setExcEnable kind true, s.setExcEnable kind false, rfl, ?_, rfl, ?_, fun kind' hne => ?_⟩
  · rw [State.excEn_setExcEnable, if_pos rfl, hview, Option.map_some]
  · rw [State.excEn_setExcEnable, if_pos rfl, hview, Option.map_some]
  · simp only [State.excEn_setExcEnable, if_neg hne, and_self]

/-! ### What each agent writes -/

/-- A count event writes the count, and at an expiry the flag and the pending bit (rule R95). -/
theorem State.tick_eq (s : State) :
    s.tick = { s with
      tcurrent := s.tick.tcurrent
      tctrl := { s.tctrl with count := s.tctrl.count || decide (s.tctrl.enable = true ∧ s.tcurrent = 1) }
      stPend := s.stPend || (decide (s.tctrl.enable = true ∧ s.tcurrent = 1) && s.tctrl.inten) } := by
  rcases s.tick_cases with ⟨he, e⟩ | ⟨_, h0, e⟩ | ⟨he, h1, e⟩ | ⟨_, _, h1, e⟩
  · simp only [e, he, Bool.false_eq_true, false_and, decide_false, Bool.or_false, Bool.false_and]
    rw [← he]
  · rw [e]; simp [h0]
  · rw [e]; simp [he, h1]
  · simp only [e, h1, and_false, decide_false, Bool.or_false, Bool.false_and]

/-- A count event changes the count only while the timer is enabled. -/
theorem State.tick_tcurrent_of_disabled {s : State} (h : s.tctrl.enable = false) : s.tick.tcurrent = s.tcurrent := by
  rw [State.tick, if_pos h]

/-- A delivery turn writes the pending bit and the event log (rule R97). -/
theorem State.deliver_eq (s : State) :
    s.deliver = { s with stPend := s.stPend && !s.gie, out := s.deliver.out } := by
  rcases s.deliver_cases with ⟨hn, e⟩ | ⟨hp, hg, _, e⟩ | ⟨hp, hg, _, e⟩
  · have hkeep : (s.stPend && !s.gie) = s.stPend := by
      cases hp : s.stPend <;> cases hg : s.gie <;> simp_all
    rw [e, hkeep]
  · rw [e, hp, hg]; rfl
  · rw [e, hp, hg]; rfl

/-- A poll writes the timer registers and the phase (rule R80). -/
theorem State.poll_frame (s : State) :
    s.poll = { s with
      tctrl := s.poll.tctrl, treload := s.poll.treload, tcurrent := s.poll.tcurrent, bw := s.poll.bw } := by
  rw [s.poll_eq]
  split <;> rfl

/-- `s` with what command `i` may write: a register that the operands or the old state decide has its new value, a
register of which only the writer matters is as in `t`. -/
def commandResult (i : Instr) (s t : State) : State :=
  match i with
  | .enirq _ => { s with en := t.en }
  | .disirq _ => { s with en := t.en }
  | .setirqpri _ _ => { s with ipr := t.ipr }
  | .getirqpri _ => { s with out := t.out }
  | .enexc kind => { s with
      shc := t.shc
      tctrl := if kind = 9 then { s.tctrl with inten := true, count := false } else s.tctrl }
  | .disexc kind => { s with
      shc := t.shc
      tctrl := if kind = 9 then { s.tctrl with inten := false, count := false } else s.tctrl }
  | .setexcpri _ _ => { s with pri1 := t.pri1, pri2 := t.pri2, pri3 := t.pri3 }
  | .getexcpri _ => { s with out := t.out }
  | .tinit _ => { s with tctrl := ⟨true, true, true, false⟩, tcurrent := 0, treload := t.treload, gie := true }
  | .tdeinit => { s with tctrl := ⟨false, false, false, false⟩, tcurrent := 0, treload := 0 }
  | .tstart => { s with tctrl := { s.tctrl with enable := true, count := false } }
  | .tstop => { s with tctrl := { s.tctrl with enable := false, count := false } }
  | .tbusywait _ => { s with tctrl := ⟨true, false, true, false⟩, tcurrent := 0, treload := t.treload, bw := .polling }
  | .setcb ref => { s with callback := ref }
  | .dispatch => { s with out := t.out }
  | .enxcpt => { s with gie := true }
  | .disxcpt => { s with gie := false }
  | .enfault => { s with gfe := true }
  | .disfault => { s with gfe := false }
  | .rdreg sel => { s with
      out := t.out
      tctrl := if sel = 0x50 then { s.tctrl with count := false } else s.tctrl }

/-- A command that answers a next state writes its own registers, and nothing else. -/
theorem exec_eq_commandResult {i : Instr} {s t : State} (h : exec i s = .next t) : t = commandResult i s t := by
  have effect := exec_effect h
  cases i with
  | enirq | disirq => exact congrArg (fun u : State => { u with en := t.en }) effect
  | setirqpri => exact congrArg (fun u : State => { u with ipr := t.ipr }) effect
  | setexcpri => exact congrArg (fun u : State => { u with pri1 := t.pri1, pri2 := t.pri2, pri3 := t.pri3 }) effect
  | getirqpri | getexcpri | rdreg =>
    obtain ⟨v, rfl⟩ := effect
    rfl
  | dispatch => exact effect.trans (congrArg (fun u : State => { s with out := u.out }) effect).symm
  | enexc | disexc | tinit | tdeinit | tstart | tstop | tbusywait | setcb | enxcpt | disxcpt | enfault | disfault =>
    exact effect

section
variable {i : Instr} {s t : State} (h : exec i s = .next t)
include h

/-- No command changes the inputs of the block or its parameters (rule R30). -/
theorem exec_inputs : t.turns = s.turns ∧ t.params = s.params ∧ t.port = s.port := by
  rw [exec_eq_commandResult h]
  cases i <;> exact ⟨rfl, rfl, rfl⟩

/-- No command changes the pending bit (rule R26). -/
theorem exec_stPend : t.stPend = s.stPend := by
  rw [exec_eq_commandResult h]
  cases i <;> rfl

/-- Only `TBUSYWAIT` closes the port, and no command opens it (rule R27). -/
theorem exec_bw : t.bw = .polling ↔ (∃ dur, i = .tbusywait dur) ∨ s.bw = .polling := by
  rw [exec_eq_commandResult h]
  cases i <;> simp [commandResult]

/-- No command sets the count flag, and those of rule R28 clear it. -/
theorem exec_count : t.tctrl.count = (s.tctrl.count && !clearsCount i) := by
  rw [exec_eq_commandResult h]
  cases i with
  | enexc | disexc | rdreg =>
    simp only [commandResult, clearsCount]
    split <;> simp_all
  | _ => simp [commandResult, clearsCount]

/-- The commands that write the interrupt-controller registers (rules R15, R17, R18, R19). -/
theorem exec_controller :
    (t.en = s.en ∨ ∃ id, i = .enirq id ∨ i = .disirq id) ∧
    (t.ipr = s.ipr ∨ ∃ id pri, i = .setirqpri id pri) ∧
    (t.shc = s.shc ∨ ∃ kind, i = .enexc kind ∨ i = .disexc kind) ∧
    ((t.pri1 = s.pri1 ∧ t.pri2 = s.pri2 ∧ t.pri3 = s.pri3) ∨ ∃ kind pri, i = .setexcpri kind pri) := by
  rw [exec_eq_commandResult h]
  cases i <;> simp [commandResult]

/-- The commands but those that load the timer leave its two counts and its clock source, and write its other control
bits one at a time (rules R20, R21, R22). -/
theorem exec_timer (hload : ∀ dur, i ≠ .tinit dur ∧ i ≠ .tbusywait dur) (hdeinit : i ≠ .tdeinit) :
    t.treload = s.treload ∧ t.tcurrent = s.tcurrent ∧
    t.tctrl.enable = (if i = .tstart then true else if i = .tstop then false else s.tctrl.enable) ∧
    t.tctrl.inten = (if i = .enexc 9 then true else if i = .disexc 9 then false else s.tctrl.inten) ∧
    t.tctrl.clksrc = s.tctrl.clksrc := by
  rw [exec_eq_commandResult h]
  cases i with
  | tinit dur => exact absurd rfl (hload dur).1
  | tbusywait dur => exact absurd rfl (hload dur).2
  | tdeinit => exact absurd rfl hdeinit
  | enexc | disexc | rdreg =>
    simp only [commandResult]
    split <;> simp_all
  | _ => simp [commandResult]

end

/-! ### Who writes each state element -/

/-- A step resets the block, performs the next command, or writes only the timer, the pending bit, the phase, the
inputs and the event log. -/
theorem step_resets_or_performs_or_keeps {s t : State} (h : step s = .next t) :
    (s.nextTurn = .reset ∧ s.nextCommand = none ∧ t = { s with turns := s.turns.tail }.resetEvent) ∨
    (s.nextTurn ≠ .reset ∧ s.nextCommand = none ∧ t = { s with
      tctrl := t.tctrl, treload := t.treload, tcurrent := t.tcurrent, stPend := t.stPend, bw := t.bw,
      port := t.port, turns := t.turns, out := t.out }) ∨
    (∃ i, s.nextTurn ≠ .reset ∧ s.nextCommand = some i ∧
      exec i { s with turns := s.turns.tail, port := s.port.tail } = .next t) := by
  rcases step_inversion h with ⟨hturn, hcmd, _, e⟩ | ⟨hturn, hcmd, _, e⟩ | ⟨hturn, hcmd, _, e⟩ |
    ⟨hturn, _, hcmd, _, e⟩ | ⟨hturn, _, hcmd, _, e⟩ | ⟨i, hturn, _, hcmd, _, hexec⟩
  · exact .inr (.inl ⟨by simp [hturn], hcmd, by rw [e, State.tick_eq]⟩)
  · exact .inr (.inl ⟨by simp [hturn], hcmd, by rw [e, State.deliver_eq]⟩)
  · exact .inl ⟨hturn, hcmd, e⟩
  · exact .inr (.inl ⟨by simp [hturn], hcmd, by rw [e, State.poll_frame]⟩)
  · exact .inr (.inl ⟨by simp [hturn], hcmd, by rw [e]⟩)
  · exact .inr (.inr ⟨i, by simp [hturn], hcmd, hexec⟩)

/-- Settles O9, by the kinds of step: only a turn of the sequencer with an open port takes a word. -/
theorem stepConsumesInputsInOrder : Obligations.StepConsumesInputsInOrder := by
  unfold Obligations.StepConsumesInputsInOrder
  intro s t h
  rcases step_inversion h with ⟨hturn, _, _, rfl⟩ | ⟨hturn, _, _, rfl⟩ | ⟨hturn, _, _, rfl⟩ |
    ⟨hturn, hbw, _, _, rfl⟩ | ⟨hturn, hbw, _, _, rfl⟩ | ⟨i, hturn, hbw, _, _, hexec⟩
  · rw [State.tick_eq]; simp [hturn]
  · rw [State.deliver_eq]; simp [hturn]
  · simp [hturn]
  · rw [State.poll_frame]; simp [hbw]
  · simp [hturn, hbw]
  · simpa [hturn, hbw] using exec_inputs hexec

/-- Settles O52: a turn of another agent keeps the three, and what a command gives them is its result. -/
theorem callbackAndMaskWriters : Obligations.CallbackAndMaskWriters := by
  unfold Obligations.CallbackAndMaskWriters
  intro s t h
  rcases step_resets_or_performs_or_keeps h with ⟨hturn, _, rfl⟩ | ⟨hturn, hcmd, e⟩ | ⟨i, hturn, hcmd, hexec⟩
  · simp only [hturn, if_true, State.resetEvent_callback, State.resetEvent_gie, State.resetEvent_gfe, and_self]
  · rw [e]
    simp only [hturn, hcmd, if_false, and_self]
  · simp only [hturn, hcmd, if_false]
    rw [exec_eq_commandResult hexec]
    cases i <;> exact ⟨rfl, rfl, rfl⟩

/-- Settles O53: only a command and a reset write the controller registers, and each register has its commands. -/
theorem controllerRegisterWriters : Obligations.ControllerRegisterWriters := by
  unfold Obligations.ControllerRegisterWriters
  intro s t h hreset
  rcases step_resets_or_performs_or_keeps h with ⟨hturn, _⟩ | ⟨_, _, e⟩ | ⟨i, _, hcmd, hexec⟩
  · exact absurd hturn hreset
  · rw [e]
    exact ⟨.inl rfl, .inl rfl, .inl rfl, .inl ⟨rfl, rfl, rfl⟩⟩
  · simpa only [hcmd, Option.some.injEq] using exec_controller hexec

/-- Only a count event expires. -/
theorem State.expires_eq_false {s : State} (h : s.nextTurn ≠ .tick) : s.expires = false := by
  simp [State.expires, h]

/-- Settles O49, by the kinds of step: a tick sets the flag at an expiry, a reset and a poll leave it clear, and a
command keeps it or clears it. -/
theorem countFlagLifecycle : Obligations.CountFlagLifecycle := by
  unfold Obligations.CountFlagLifecycle
  intro s t h
  rcases step_inversion h with ⟨hturn, hcmd, hpolls, rfl⟩ | ⟨hturn, hcmd, hpolls, rfl⟩ | ⟨hturn, _, _, rfl⟩ |
    ⟨hturn, _, _, hpolls, rfl⟩ | ⟨hturn, _, hcmd, hpolls, rfl⟩ | ⟨i, hturn, _, hcmd, hpolls, hexec⟩
  case inl =>
    rw [State.tick_eq]
    simp [State.expires, hturn, hcmd, hpolls, or_comm]
  all_goals rw [State.expires_eq_false (by simp [hturn])]
  · rw [State.deliver_eq]
    simp [hturn, hcmd, hpolls]
  · simp [hturn]
  · rw [State.poll_eq]
    split <;> simp_all
  · simp [hturn, hcmd, hpolls]
  · simp [exec_count hexec, hturn, hcmd, hpolls]

/-- Settles O50, by the kinds of step: a tick sets the bit at an expiry with `INTEN`, a delivery and a reset clear
it. -/
theorem pendingBitLifecycle : Obligations.PendingBitLifecycle := by
  unfold Obligations.PendingBitLifecycle
  intro s t h
  rcases step_inversion h with ⟨hturn, _, _, rfl⟩ | ⟨hturn, _, _, rfl⟩ | ⟨hturn, _, _, rfl⟩ |
    ⟨hturn, _, _, _, rfl⟩ | ⟨hturn, _, _, _, rfl⟩ | ⟨i, hturn, _, _, _, hexec⟩
  case inl =>
    rw [State.tick_eq]
    simp [State.expires, State.delivers, hturn, or_comm]
  all_goals rw [State.expires_eq_false (by simp [hturn])]
  · rw [State.deliver_eq]
    simp +contextual [State.delivers, hturn]
  · simp [hturn]
  · rw [State.poll_frame]
    simp [State.delivers, hturn]
  · simp [State.delivers, hturn]
  · simp [exec_stPend hexec, State.delivers, hturn]

/-- Settles O51, by the kinds of step: `TBUSYWAIT` starts the phase, a reset and a poll that saw the flag end it. -/
theorem busyWaitLifecycle : Obligations.BusyWaitLifecycle := by
  unfold Obligations.BusyWaitLifecycle
  intro s t h
  rcases step_inversion h with ⟨hturn, hcmd, hpolls, rfl⟩ | ⟨hturn, hcmd, hpolls, rfl⟩ | ⟨hturn, hcmd, _, rfl⟩ |
    ⟨hturn, hbw, hcmd, hpolls, rfl⟩ | ⟨hturn, hbw, hcmd, _, rfl⟩ | ⟨i, hturn, hbw, hcmd, _, hexec⟩
  · rw [State.tick_eq]; simp [hturn, hcmd, hpolls]
  · rw [State.deliver_eq]; simp [hturn, hcmd, hpolls]
  · simp [hturn, hcmd]
  · rw [State.poll_eq]
    split <;> simp_all
  · simp [hbw, hcmd]
  · simp [exec_bw hexec, hbw, hcmd]

/-- Settles O54: outside the excluded steps only a count event and the commands of single control bits are left. -/
theorem timerRegisterWriters : Obligations.TimerRegisterWriters := by
  unfold Obligations.TimerRegisterWriters
  intro s t h hreset hnopoll hload hdeinit
  rcases step_inversion h with ⟨hturn, hcmd, _, rfl⟩ | ⟨_, hcmd, _, rfl⟩ | ⟨hturn, _⟩ |
    ⟨_, _, _, hpolls, _⟩ | ⟨_, _, hcmd, _, rfl⟩ | ⟨i, _, _, hcmd, _, hexec⟩
  · have hcount (he : s.tctrl.enable = false) : { s with turns := s.turns.tail }.tick.tcurrent = s.tcurrent :=
      State.tick_tcurrent_of_disabled he
    rw [State.tick_eq]
    cases he : s.tctrl.enable <;> simp [hturn, hcmd, he, hcount]
  · rw [State.deliver_eq]; simp [hcmd]
  · exact absurd hturn hreset
  · simp [hnopoll] at hpolls
  · simp [hcmd]
  · simp only [hcmd, ne_eq, Option.some.injEq] at hload hdeinit ⊢
    obtain ⟨hreload, hcurrent, hctrl⟩ := exec_timer hexec hload hdeinit
    exact ⟨hreload, .inl hcurrent, hctrl⟩

/-! ### Writes outside a mask -/

/-- A write that keeps the bits outside `f` keeps every mask that lies outside `f`. -/
theorem agreeOn_of_agreeOn_compl {f m v w : Word} (h : agreeOn (~~~f) v w) (hm : ~~~f &&& m = m) : agreeOn m v w := by
  calc v &&& m = v &&& ~~~f &&& m := by rw [BitVec.and_assoc, hm]
    _ = w &&& ~~~f &&& m := by rw [h]
    _ = w &&& m := by rw [BitVec.and_assoc, hm]

/-- A bit write keeps every mask without the bit. -/
theorem agreeOn_setBit {m : Word} {i : Nat} (hm : ~~~bitMask i &&& m = m) (v : Word) (b : Bool) :
    agreeOn m (setBit v i b) v := by
  refine agreeOn_of_agreeOn_compl (BitVec.eq_of_getLsbD_eq fun j _ => ?_) hm
  simp only [BitVec.getLsbD_and, BitVec.getLsbD_not, setBit_getLsbD, bitMask_getLsbD]
  by_cases hj : j = i ∧ j < 32 <;> simp [hj]

/-- A field write keeps every mask outside the field. -/
theorem agreeOn_fieldInsert {m : Word} {sh : Nat} (hm : ~~~fieldMask sh &&& m = m) (v : Word) (p : BitVec 3) :
    agreeOn m (fieldInsert v sh p) v :=
  agreeOn_of_agreeOn_compl (fieldInsert_and_not_fieldMask v sh p) hm

/-! ### The bits no command writes -/

/-- The bits of an enable of `EN[4]` are bits 0 to 10 (rule R15). -/
theorem bitMask_outside_en4 {i : Nat} (hi : i ≤ 10) : ~~~bitMask i &&& 0xFFFFF800 = 0xFFFFF800 := by
  interval_cases i <;> decide

/-- The fields of an IRQ priority register are the high three bits of its lanes (rule R17). -/
theorem fieldMask_outside_ipr {n : Nat} (hn : n < 4) : ~~~fieldMask (8 * n + 5) &&& 0x1F1F1F1F = 0x1F1F1F1F := by
  interval_cases n <;> decide

/-- The last IRQ priority register has three fields (rule R17). -/
theorem fieldMask_outside_ipr34 {n : Nat} (hn : n < 3) : ~~~fieldMask (8 * n + 5) &&& 0xFF1F1F1F = 0xFF1F1F1F := by
  interval_cases n <;> decide

/-- The bits of an exception priority register no field covers (rule R19). -/
def PriReg.unused : PriReg → Word
  | .pri1 => 0xFF1F1F1F
  | .pri2 => 0x1FFFFFFF
  | .pri3 => 0x1F1FFF1F

/-- The field of a kind lies outside the unused bits of its register. -/
theorem fieldMask_outside_unused {kind : Nat} {r : PriReg} {sh : Nat} (h : excPriLocate kind = some (r, sh)) :
    ~~~fieldMask sh &&& r.unused = r.unused := by
  match kind with
  | 0 | 1 | 2 => cases h
  | 3 | 4 | 5 | 6 | 7 | 8 | 9 => cases h; decide
  | n + 10 => cases h

section
variable {s : State} (hs : s.UnusedBitsKept)
include hs

/-- Writing the enable of a line keeps the unused bits (rules R15, R58). -/
theorem State.UnusedBitsKept.setIrqEnable (id : Nat) (b : Bool) : (s.setIrqEnable id b).UnusedBitsKept := by
  rcases s.setIrqEnable_cases id b with ⟨hid, e⟩ | ⟨_, e⟩
  · obtain ⟨hen, hrest⟩ := hs
    rw [e]
    refine ⟨?_, hrest⟩
    rw [State.enAt_setEn]
    split
    · next hreg =>
      obtain ⟨hreg, _⟩ := hreg
      rw [hreg]
      exact (agreeOn_setBit (bitMask_outside_en4 (by omega)) _ b).trans hen
    · exact hen
  · rw [e]
    exact hs

/-- Writing a bit of `SHC` outside the unused ones keeps the unused bits (rule R18). -/
theorem State.UnusedBitsKept.setShc {i : Nat} (hi : ~~~bitMask i &&& 0xFFF8FFFF = 0xFFF8FFFF) (b : Bool) :
    (s.setShc (setBit s.shc i b)).UnusedBitsKept := by
  obtain ⟨hen, hipr, hipr34, hshc, hpri⟩ := hs
  exact ⟨hen, hipr, hipr34, (agreeOn_setBit hi _ b).trans hshc, hpri⟩

/-- Writing the enable of a kind keeps the unused bits (rules R18, R66). -/
theorem State.UnusedBitsKept.setExcEnable (kind : Nat) (b : Bool) : (s.setExcEnable kind b).UnusedBitsKept := by
  rcases s.setExcEnable_cases kind b with ⟨_, e⟩ | ⟨_, e⟩ | ⟨_, e⟩ | ⟨_, e⟩ | ⟨_, _, _, _, e⟩ <;> rw [e]
  · exact hs.setShc (by decide) b
  · exact hs.setShc (by decide) b
  · exact hs.setShc (by decide) b
  · exact hs
  · exact hs

/-- Writing the priority field of a line keeps the unused bits (rules R17, R62). -/
theorem State.UnusedBitsKept.setIpr {id : Nat} (hid : id ≤ 138) (p : BitVec 3) :
    (s.setIpr (id / 4) (fieldInsert (s.iprAt (id / 4)) (8 * (id % 4) + 5) p)).UnusedBitsKept := by
  obtain ⟨hen, hipr, hipr34, hrest⟩ := hs
  refine ⟨hen, fun r hr => ?_, ?_, hrest⟩ <;> rw [State.iprAt_setIpr] <;> split
  · next hreg =>
    obtain ⟨hreg, _⟩ := hreg
    rw [hreg]
    exact (agreeOn_fieldInsert (fieldMask_outside_ipr (by omega)) _ p).trans (hipr r hr)
  · exact hipr r hr
  · next hreg =>
    obtain ⟨hreg, _⟩ := hreg
    rw [hreg]
    exact (agreeOn_fieldInsert (fieldMask_outside_ipr34 (by omega)) _ p).trans hipr34
  · exact hipr34

/-- Writing a field outside the unused bits of its exception priority register keeps the unused bits (rule R19). -/
theorem State.UnusedBitsKept.setPri {r : PriReg} {sh : Nat} (hm : ~~~fieldMask sh &&& r.unused = r.unused)
    (p : BitVec 3) : (s.setPri r (fieldInsert (s.priAt r) sh p)).UnusedBitsKept := by
  obtain ⟨hen, hipr, hipr34, hshc, hpri1, hpri2, hpri3⟩ := hs
  have hfield := agreeOn_fieldInsert hm (s.priAt r) p
  cases r with
  | pri1 => exact ⟨hen, hipr, hipr34, hshc, hfield.trans hpri1, hpri2, hpri3⟩
  | pri2 => exact ⟨hen, hipr, hipr34, hshc, hpri1, hfield.trans hpri2, hpri3⟩
  | pri3 => exact ⟨hen, hipr, hipr34, hshc, hpri1, hpri2, hfield.trans hpri3⟩

/-- No command writes a bit that rule R32 says none writes. -/
theorem exec_keeps_unusedBits {i : Instr} {t : State} (h : exec i s = .next t) : t.UnusedBitsKept := by
  cases i with
  | enirq id => cases h; exact hs.setIrqEnable id true
  | disirq id => cases h; exact hs.setIrqEnable id false
  | enexc kind => cases h; exact hs.setExcEnable kind true
  | disexc kind => cases h; exact hs.setExcEnable kind false
  | setirqpri id pri =>
    simp only [exec, execSetirqpri] at h
    split at h <;> cases h
    · next hid => exact hs.setIpr hid _
    · exact hs
  | setexcpri kind pri =>
    simp only [exec, execSetexcpri] at h
    split at h
    · cases h; exact hs
    · next hloc =>
      split at h <;> cases h
      exact hs.setPri (fieldMask_outside_unused hloc) _
  | getirqpri | getexcpri | tinit | tdeinit | tstart | tstop | tbusywait | setcb | dispatch | enxcpt | disxcpt
  | enfault | disfault | rdreg =>
    rw [exec_eq_commandResult h]
    exact hs

end

/-! ### The invariant -/

/-- The control bits are bound only while a busy-wait is polling. -/
theorem State.pollingControl_of_idle {s : State} (h : s.bw = .idle) : s.PollingControl := by
  intro hpolling
  rw [h] at hpolling
  cases hpolling

/-- Power-on leaves the timer stopped at zero, no busy-wait, and every unused bit at its reset value. -/
theorem powerOn_inv (p : Params) : (State.powerOn p).Inv :=
  ⟨Nat.le_refl 0, State.pollingControl_of_idle rfl, rfl, fun _ _ => rfl, rfl, rfl, rfl, rfl, rfl⟩

/-- Settles O56, the default image being one of the images. -/
theorem powerOnHasInvariant : Obligations.PowerOnHasInvariant := by
  unfold Obligations.PowerOnHasInvariant
  exact ⟨powerOn_inv Params.default, powerOn_inv⟩

/-- Settles O59: the images of the register banks are zero at every index, and the rest are values of the state. -/
theorem resetRegisterValues : Obligations.ResetRegisterValues := by
  unfold Obligations.ResetRegisterValues
  refine ⟨fun r => ?_, fun r => ?_, rfl, fun R => ?_, by decide, rfl, rfl, rfl, rfl, rfl, rfl, rfl⟩
  · by_cases hr : r < 5 <;>
      simp [State.enAt, State.reset, State.powerOn, Params.default, ResetImage.default, Vector.getD, hr]
  · by_cases hr : r < 35 <;>
      simp [State.iprAt, State.reset, State.powerOn, Params.default, ResetImage.default, Vector.getD, hr]
  · cases R <;> rfl

/-- Counting down from a count that is not zero does not wrap around. -/
theorem count_pred_le {c : BitVec 24} (h : c ≠ 0) : (c - 1).toNat ≤ c.toNat := by
  bv_omega

/-- A count event keeps the count at or below the reload value: it reloads, counts down, or does nothing. -/
theorem State.tick_tcurrent_le {s : State} (h : s.tcurrent.toNat ≤ s.treload.toNat) :
    s.tick.tcurrent.toNat ≤ s.treload.toNat := by
  rcases s.tick_cases with ⟨_, e⟩ | ⟨_, _, e⟩ | ⟨_, _, e⟩ | ⟨_, h0, _, e⟩
  · rw [e]
    exact h
  · rw [e]
  · rw [e]
    exact Nat.zero_le _
  · rw [e]
    exact (count_pred_le h0).trans h

/-- A command loads the reload value with a count of zero, or leaves the two counts alone. -/
theorem exec_counts {i : Instr} {s t : State} (h : exec i s = .next t) :
    t.tcurrent = 0 ∨ (t.tcurrent = s.tcurrent ∧ t.treload = s.treload) := by
  rw [exec_eq_commandResult h]
  cases i <;> simp [commandResult]

/-- Every step keeps the count at or below the reload value. -/
theorem step_keeps_count_le_reload {s t : State} (hs : s.tcurrent.toNat ≤ s.treload.toNat) (h : step s = .next t) :
    t.tcurrent.toNat ≤ t.treload.toNat := by
  rcases step_inversion h with ⟨_, _, _, rfl⟩ | ⟨_, _, _, rfl⟩ | ⟨_, _, _, rfl⟩ | ⟨_, _, _, _, rfl⟩ |
    ⟨_, _, _, _, rfl⟩ | ⟨i, _, _, _, _, hexec⟩
  · rw [State.tick_eq]
    exact State.tick_tcurrent_le hs
  · rw [State.deliver_eq]
    exact hs
  · exact Nat.le_refl 0
  · rw [State.poll_eq]
    split
    · exact Nat.le_refl 0
    · exact hs
  · exact hs
  · rcases exec_counts hexec with hzero | ⟨hcurrent, hreload⟩
    · rw [hzero]
      exact Nat.zero_le _
    · rw [hcurrent, hreload]
      exact hs

/-- Every step keeps the control bits of a busy-wait: no command runs during the polling, and the one that starts it
writes them. -/
theorem step_keeps_pollingControl {s t : State} (hs : s.PollingControl) (h : step s = .next t) :
    t.PollingControl := by
  rcases step_inversion h with ⟨_, _, _, rfl⟩ | ⟨_, _, _, rfl⟩ | ⟨_, _, _, rfl⟩ | ⟨_, _, _, _, rfl⟩ |
    ⟨_, _, _, _, rfl⟩ | ⟨i, _, hbw, _, _, hexec⟩
  · rw [State.tick_eq]
    exact hs
  · rw [State.deliver_eq]
    exact hs
  · exact State.pollingControl_of_idle rfl
  · rw [State.poll_eq]
    split
    · exact State.pollingControl_of_idle rfl
    · exact hs
  · exact hs
  · intro hpolling
    rcases (exec_bw hexec).mp hpolling with ⟨dur, rfl⟩ | hclosed
    · rw [exec_eq_commandResult hexec]
      exact ⟨rfl, rfl, rfl⟩
    · simp [hbw] at hclosed

/-- Every step keeps the bits no command writes. -/
theorem step_keeps_unusedBits {s t : State} (hs : s.UnusedBitsKept) (h : step s = .next t) : t.UnusedBitsKept := by
  rcases step_resets_or_performs_or_keeps h with ⟨_, _, rfl⟩ | ⟨_, _, e⟩ | ⟨i, _, _, hexec⟩
  · obtain ⟨_, _, hreset⟩ := powerOn_inv s.params
    exact hreset
  · rw [e]
    exact hs
  · refine exec_keeps_unusedBits ?_ hexec
    exact hs

/-- Settles O57, one part of the invariant at a time. -/
theorem stepKeepsInvariant : Obligations.StepKeepsInvariant := by
  unfold Obligations.StepKeepsInvariant
  intro s t ⟨hcount, hcontrol, hbits⟩ h
  exact ⟨step_keeps_count_le_reload hcount h, step_keeps_pollingControl hcontrol h, step_keeps_unusedBits hbits h⟩

end Sys2Proof.Machine
end

section
/-! PROOFS. Registers and access (20_memory.md): the selector map (rules R34, R35), the access primitives of the timer
(rules R37 to R39), and the race of a delivery with a `SETCB` (rule R46). -/

namespace Sys2Proof.Machine

/-! ### The selector map -/

/-- Selectors 0x00 to 0x04 name the enable registers. -/
theorem selectorOf_en {r : Nat} (hr : r < 5) : selectorOf r = .en r :=
  if_pos (by omega)

/-- Selectors 0x08 to 0x0C name the disable registers. -/
theorem selectorOf_dis {r : Nat} (hr : r < 5) : selectorOf (0x08 + r) = .dis r := by
  rw [selectorOf, if_neg (by omega), if_pos (by omega), Nat.add_sub_cancel_left]

/-- Selectors 0x10 to 0x32 name the IRQ priority registers. -/
theorem selectorOf_ipr {r : Nat} (hr : r < 35) : selectorOf (0x10 + r) = .ipr r := by
  rw [selectorOf, if_neg (by omega), if_neg (by omega), if_pos (by omega), Nat.add_sub_cancel_left]

/-- The selectors between the rows of rule R34 and above the last name no register. -/
theorem selectorOf_eq_unmapped {sel : Nat}
    (hgap : (0x05 ≤ sel ∧ sel ≤ 0x07) ∨ (0x0D ≤ sel ∧ sel ≤ 0x0F) ∨ (0x33 ≤ sel ∧ sel ≤ 0x3F) ∨
      (0x44 ≤ sel ∧ sel ≤ 0x4F) ∨ (0x53 ≤ sel ∧ sel ≤ 0x5F) ∨ 0x62 ≤ sel) :
    selectorOf sel = .unmapped := by
  unfold selectorOf
  repeat rw [if_neg (by omega)]

/-- A read of an enable register. -/
theorem State.regWord_en (s : State) {r : Nat} (hr : r < 5) : s.regWord r = s.enAt r := by
  rw [State.regWord, selectorOf_en hr]

/-- A read of a disable register gives the enable register (rule R16). -/
theorem State.regWord_dis (s : State) {r : Nat} (hr : r < 5) : s.regWord (0x08 + r) = s.enAt r := by
  rw [State.regWord, selectorOf_dis hr]

/-- A read of an IRQ priority register. -/
theorem State.regWord_ipr (s : State) {r : Nat} (hr : r < 35) : s.regWord (0x10 + r) = s.iprAt r := by
  rw [State.regWord, selectorOf_ipr hr]

/-- A read by a selector that names no register gives 0. -/
theorem State.regWord_of_unmapped (s : State) {sel : Nat} (h : selectorOf sel = .unmapped) : s.regWord sel = 0 := by
  rw [State.regWord, h]

/-- A count register fits a word, so widening it keeps its value. -/
theorem count_setWidth_toNat (c : Count) : (c.setWidth 32).toNat = c.toNat :=
  BitVec.toNat_setWidth_of_le (by decide)

/-- The read of `TCTRL` gives the control word: its four bits in their places, zeros elsewhere. -/
theorem State.regWord_tctrl_getLsbD (s : State) (b : Nat) :
    (s.regWord 0x50).getLsbD b =
      if b = 0 then s.tctrl.enable else if b = 1 then s.tctrl.inten else if b = 2 then s.tctrl.clksrc
      else if b = 16 then s.tctrl.count else false := by
  have hbits : (s.regWord 0x50).getLsbD b = _ := s.tctrl.word_getLsbD b
  grind only

/-- The read of `STATUS` gives the two masks and the pending bit, zeros above. -/
theorem State.regWord_status_getLsbD (s : State) (b : Nat) :
    (s.regWord 0x61).getLsbD b =
      if b = 0 then s.gie else if b = 1 then s.gfe else if b = 2 then s.stPend else false := by
  have hbits : (s.regWord 0x61).getLsbD b = _ := s.statusWord_getLsbD b
  grind only

/-- Settles O42, row by row: the banks and the gaps by the selectors that name them, the words of single bits by their
bits, the other registers by evaluating their one selector. -/
theorem selectorMapReads : Obligations.SelectorMapReads := by
  unfold Obligations.SelectorMapReads
  intro s
  exact ⟨fun r hr => ⟨s.regWord_en hr, s.regWord_dis hr⟩, fun r hr => s.regWord_ipr hr, rfl, rfl, rfl, rfl,
    fun b _ => s.regWord_tctrl_getLsbD b, count_setWidth_toNat s.treload, count_setWidth_toNat s.tcurrent, rfl,
    fun b _ => s.regWord_status_getLsbD b,
    fun sel hgap => s.regWord_of_unmapped (selectorOf_eq_unmapped hgap)⟩

/-! ### The access primitives of the timer -/

/-- The control word is zero outside its four bits. -/
theorem Tctrl.word_and_unimplemented (c : Tctrl) : c.word &&& 0xFFFEFFF8#32 = 0 := by
  apply BitVec.eq_of_getLsbD_eq
  intro j _
  rw [BitVec.getLsbD_and, Tctrl.word_getLsbD]
  split_ifs with hcount hclksrc hinten henable
  · rw [hcount]; exact Bool.and_false _
  · rw [hclksrc]; exact Bool.and_false _
  · rw [hinten]; exact Bool.and_false _
  · rw [henable]; exact Bool.and_false _
  · rw [Bool.false_and]; exact BitVec.getLsbD_zero.symm

/-- Settles O43: the word read by the bits of the control word, the three resulting states by definition. -/
theorem timerAccessPrimitives : Obligations.TimerAccessPrimitives := by
  unfold Obligations.TimerAccessPrimitives
  intro s v
  exact ⟨s.tctrl.word_count, s.tctrl.word_and_unimplemented, rfl, rfl, rfl⟩

/-! ### A delivery and a `SETCB` -/

/-- An enabled delivery to a registered callback clears the pending bit and emits the invocation (rules R84, R97). -/
theorem State.deliver_of_registered {s : State} (hp : s.stPend = true) (hg : s.gie = true) (hc : s.callback ≠ 0) :
    s.deliver = { s with stPend := false, out := s.out ++ [.invoke s.callback] } := by
  rcases s.deliver_cases with ⟨hn, _⟩ | ⟨_, _, hz, _⟩ | ⟨_, _, _, e⟩
  · exact absurd ⟨hp, hg⟩ hn
  · exact absurd hz hc
  · exact e

/-- `SETCB` writes the slot and nothing else (rule R83). -/
theorem exec_setcb (ref : Word) (s : State) : exec (.setcb ref) s = .next { s with callback := ref } := rfl

/-- Settles O48: in either order the delivery is enabled and its slot registered, so each order's end state is known
exactly; the two differ in the reference invoked. -/
theorem callbackRaceBothOrders : Obligations.CallbackRaceBothOrders := by
  unfold Obligations.CallbackRaceBothOrders
  intro s ref hp hg hc href
  have hold : s.deliver = { s with stPend := false, out := s.out ++ [.invoke s.callback] } :=
    State.deliver_of_registered hp hg hc
  have hnew := State.deliver_of_registered (s := { s with callback := ref }) hp hg href
  refine ⟨{ s.deliver with callback := ref }, { s with callback := ref }, exec_setcb _ _, exec_setcb _ _, ?_, ?_, ?_⟩
  · rw [hold]
  · rw [hnew]
  · rw [hold, hnew]

end Sys2Proof.Machine
end

section
/-! PROOFS. Command words (30_encoding.md): the words of each format (rules R49 to R51), the encoder and the decoder as
inverses (rules R51, R52), the opcode table as the decoder (rules R50, R52), illegal and sample words (rule R53). -/

namespace Sys2Proof

/-! ### The fields of a word -/

/-- A command word is its five fields (rule R49). -/
theorem fieldsOf_injective : Function.Injective fieldsOf := by
  intro c d h
  simp only [fieldsOf, Fields.mk.injEq, BitVec.toNat_eq, BitVec.extractLsb'_toNat, Nat.shiftRight_eq_div_pow] at h
  obtain ⟨hop, ha, hb, hz, hw⟩ := h
  apply BitVec.eq_of_toNat_eq
  omega

/-- A word is the command word of given fields exactly when it has those fields and zero in `Z`. -/
theorem eq_commandWord_iff {c : CmdWord} {op a b : Nat} {w : Word} :
    c = commandWord op a b w ↔
      fieldsOf c = ⟨BitVec.ofNat 8 op, BitVec.ofNat 8 a, BitVec.ofNat 8 b, 0, w⟩ := by
  rw [← fieldsOf_injective.eq_iff, fieldsOf_commandWord]

/-- The fields of a masked word are the masked fields. -/
theorem fieldsOf_and (c d : CmdWord) :
    fieldsOf (c &&& d) =
      ⟨(fieldsOf c).op &&& (fieldsOf d).op, (fieldsOf c).a &&& (fieldsOf d).a, (fieldsOf c).b &&& (fieldsOf d).b,
        (fieldsOf c).z &&& (fieldsOf d).z, (fieldsOf c).w &&& (fieldsOf d).w⟩ := by
  simp only [fieldsOf, BitVec.extractLsb'_and]

/-! ### Reading the operands of a format (rules R50, R51) -/

section
variable {f : Fields} {i : Instr}

/-- Format `Z0` reads its command from the fields that are all zero below `OP`. -/
theorem Fields.asZ0_eq_ok_iff {j : Instr} : f.asZ0 j = .ok i ↔ j = i ∧ f = ⟨f.op, 0, 0, 0, 0⟩ := by
  constructor
  · obtain ⟨op, a, b, z, w⟩ := f
    intro h
    rw [Fields.asZ0] at h
    split at h
    · next hzero =>
      obtain ⟨rfl, rfl, rfl, rfl⟩ := hzero
      exact ⟨Except.ok.inj h, rfl⟩
    · cases h
  · rintro ⟨rfl, hf⟩
    rw [hf]
    rfl

/-- Format `A1` reads any operand `A`, from fields that are zero in `B`, `Z` and `W`. -/
theorem Fields.asA1_eq_ok_iff {mk : Nat → Instr} :
    f.asA1 mk = .ok i ↔ ∃ a < 256, mk a = i ∧ f = ⟨f.op, BitVec.ofNat 8 a, 0, 0, 0⟩ := by
  constructor
  · obtain ⟨op, a, b, z, w⟩ := f
    intro h
    rw [Fields.asA1] at h
    split at h
    · next hzero =>
      obtain ⟨rfl, rfl, rfl⟩ := hzero
      exact ⟨a.toNat, a.isLt, Except.ok.inj h, by simp⟩
    · cases h
  · rintro ⟨a, ha, rfl, hf⟩
    rw [hf]
    simp [Fields.asA1, Nat.mod_eq_of_lt ha]

/-- Format `AB` reads any operands `A` and `B`, from fields that are zero in `Z` and `W`. -/
theorem Fields.asAB_eq_ok_iff {mk : Nat → Nat → Instr} :
    f.asAB mk = .ok i ↔
      ∃ a < 256, ∃ b < 256, mk a b = i ∧ f = ⟨f.op, BitVec.ofNat 8 a, BitVec.ofNat 8 b, 0, 0⟩ := by
  constructor
  · obtain ⟨op, a, b, z, w⟩ := f
    intro h
    rw [Fields.asAB] at h
    split at h
    · next hzero =>
      obtain ⟨rfl, rfl⟩ := hzero
      exact ⟨a.toNat, a.isLt, b.toNat, b.isLt, Except.ok.inj h, by simp⟩
    · cases h
  · rintro ⟨a, ha, b, hb, rfl, hf⟩
    rw [hf]
    simp [Fields.asAB, Nat.mod_eq_of_lt ha, Nat.mod_eq_of_lt hb]

/-- Format `W1` reads any operand `W`, from fields that are zero in `A`, `B` and `Z`. -/
theorem Fields.asW1_eq_ok_iff {mk : Word → Instr} :
    f.asW1 mk = .ok i ↔ ∃ w, mk w = i ∧ f = ⟨f.op, 0, 0, 0, w⟩ := by
  constructor
  · obtain ⟨op, a, b, z, w⟩ := f
    intro h
    rw [Fields.asW1] at h
    split at h
    · next hzero =>
      obtain ⟨rfl, rfl, rfl⟩ := hzero
      exact ⟨w, Except.ok.inj h, rfl⟩
    · cases h
  · rintro ⟨w, rfl, hf⟩
    rw [hf]
    rfl

end

/-! ### Decoder and encoder -/

/-- The opcode read as a number and the other fields determine the word. -/
theorem commandWord_eq_of_fields {c : CmdWord} {op a b : Nat} {w : Word} (hop : (fieldsOf c).op.toNat = op)
    (h : fieldsOf c = ⟨(fieldsOf c).op, BitVec.ofNat 8 a, BitVec.ofNat 8 b, 0, w⟩) : commandWord op a b w = c := by
  refine (eq_commandWord_iff.mpr (h.trans ?_)).symm
  rw [← hop, BitVec.ofNat_toNat, BitVec.setWidth_eq]

/-- The durations that fit the field `W` are the values of its words (rule R51). -/
theorem fitsWord_iff {n : Nat} : fitsWord n = true ↔ ∃ w : Word, w.toNat = n := by
  constructor
  · exact fun h => ⟨BitVec.ofNat 32 n, (BitVec.toNat_ofNat n 32).trans (Nat.mod_eq_of_lt (of_decide_eq_true h))⟩
  · rintro ⟨w, rfl⟩
    exact decide_eq_true w.isLt

/-- Settles O3: at each opcode of the map, what the row's format reads fits its fields and gives back the fields of the
word. -/
theorem encodeOfDecode : Obligations.EncodeOfDecode := by
  unfold Obligations.EncodeOfDecode
  intro c i h
  rw [decode, Fields.toInstr] at h
  split at h
  case h_1 hop | h_2 hop | h_4 hop | h_5 hop | h_6 hop | h_8 hop | h_20 hop =>
    obtain ⟨a, ha, rfl, hf⟩ := Fields.asA1_eq_ok_iff.mp h
    exact ⟨decide_eq_true ha, commandWord_eq_of_fields hop hf⟩
  case h_3 hop | h_7 hop =>
    obtain ⟨a, ha, b, hb, rfl, hf⟩ := Fields.asAB_eq_ok_iff.mp h
    exact ⟨Bool.and_eq_true_iff.mpr ⟨decide_eq_true ha, decide_eq_true hb⟩, commandWord_eq_of_fields hop hf⟩
  case h_9 hop | h_13 hop =>
    obtain ⟨w, rfl, hf⟩ := Fields.asW1_eq_ok_iff.mp h
    refine ⟨fitsWord_iff.mpr ⟨w, rfl⟩, ?_⟩
    rw [encode, BitVec.ofNat_toNat, BitVec.setWidth_eq]
    exact commandWord_eq_of_fields hop hf
  case h_14 hop =>
    obtain ⟨w, rfl, hf⟩ := Fields.asW1_eq_ok_iff.mp h
    exact ⟨rfl, commandWord_eq_of_fields hop hf⟩
  case h_10 hop | h_11 hop | h_12 hop | h_15 hop | h_16 hop | h_17 hop | h_18 hop | h_19 hop =>
    obtain ⟨rfl, hf⟩ := Fields.asZ0_eq_ok_iff.mp h
    exact ⟨rfl, commandWord_eq_of_fields hop hf⟩
  case h_21 => cases h

/-- Settles O2: the opcode of each command selects its own format, which reads back the operands that fit. -/
theorem decodeOfEncode : Obligations.DecodeOfEncode := by
  unfold Obligations.DecodeOfEncode
  intro i h
  rw [decode]
  cases i with
  | enirq a | disirq a | getirqpri a | enexc a | disexc a | getexcpri a | rdreg a =>
    rw [encode, fieldsOf_commandWord]
    exact Fields.asA1_eq_ok_iff.mpr ⟨a, of_decide_eq_true h, rfl, rfl⟩
  | setirqpri a b | setexcpri a b =>
    obtain ⟨ha, hb⟩ := Bool.and_eq_true_iff.mp h
    rw [encode, fieldsOf_commandWord]
    exact Fields.asAB_eq_ok_iff.mpr ⟨a, of_decide_eq_true ha, b, of_decide_eq_true hb, rfl, rfl⟩
  | tinit dur | tbusywait dur =>
    obtain ⟨w, rfl⟩ := fitsWord_iff.mp h
    rw [encode, fieldsOf_commandWord, BitVec.ofNat_toNat, BitVec.setWidth_eq]
    simp only [Fields.toInstr, BitVec.reduceToNat]
    exact Fields.asW1_eq_ok_iff.mpr ⟨w, rfl, rfl⟩
  | setcb ref =>
    rw [encode, fieldsOf_commandWord]
    exact Fields.asW1_eq_ok_iff.mpr ⟨ref, rfl, rfl⟩
  | tdeinit | tstart | tstop | dispatch | enxcpt | disxcpt | enfault | disfault =>
    rw [encode, fieldsOf_commandWord]
    exact Fields.asZ0_eq_ok_iff.mpr ⟨rfl, rfl⟩

/-! ### The opcode table -/

/-- The match of a row is the command word of its opcode with every operand zero (rule R50). -/
theorem OpcodeRow.matchBits_eq (r : OpcodeRow) : r.matchBits = commandWord r.opcode 0 0 0 := by
  apply fieldsOf_injective
  rw [fieldsOf_commandWord]
  simp only [OpcodeRow.matchBits, fieldsOf, Fields.mk.injEq, BitVec.toNat_eq, BitVec.extractLsb'_toNat,
    Nat.shiftRight_eq_div_pow, BitVec.toNat_shiftLeft, BitVec.toNat_ofNat, Nat.shiftLeft_eq, BitVec.ofNat_eq_ofNat]
  omega

/-- A word matches a row exactly when its masked fields are the row's opcode and zeros (rule R50). -/
theorem OpcodeRow.match_iff_fields (r : OpcodeRow) (c : CmdWord) :
    c &&& r.mask = r.matchBits ↔ fieldsOf (c &&& r.mask) = ⟨BitVec.ofNat 8 r.opcode, 0, 0, 0, 0⟩ := by
  rw [r.matchBits_eq]
  exact eq_commandWord_iff

section
variable {c : CmdWord} {name : String} {op : Nat}

/-- The one word that matches a row of format `Z0`. -/
theorem match_z0_iff :
    c &&& OpcodeRow.mask ⟨name, op, .z0⟩ = OpcodeRow.matchBits ⟨name, op, .z0⟩ ↔ c = commandWord op 0 0 0 := by
  have hmask : c &&& OpcodeRow.mask ⟨name, op, .z0⟩ = c := BitVec.and_allOnes
  rw [hmask, OpcodeRow.matchBits_eq]

/-- The words that match a row of format `A1`: any operand `A`. -/
theorem match_a1_iff :
    c &&& OpcodeRow.mask ⟨name, op, .a1⟩ = OpcodeRow.matchBits ⟨name, op, .a1⟩ ↔
      ∃ a < 256, c = commandWord op a 0 0 := by
  have hmask : fieldsOf Format.a1.mask =
      ⟨BitVec.allOnes 8, 0#8, BitVec.allOnes 8, BitVec.allOnes 8, BitVec.allOnes 32⟩ := by decide
  rw [OpcodeRow.match_iff_fields]
  simp only [OpcodeRow.mask, fieldsOf_and, hmask, BitVec.and_allOnes, BitVec.and_zero, eq_commandWord_iff]
  constructor
  · obtain ⟨op', a, b, z, w⟩ := fieldsOf c
    intro h
    obtain ⟨rfl, -, rfl, rfl, rfl⟩ := Fields.mk.inj h
    exact ⟨a.toNat, a.isLt, by simp⟩
  · rintro ⟨a, _, hf⟩
    rw [hf]
    rfl

/-- The words that match a row of format `AB`: any operands `A` and `B`. -/
theorem match_ab_iff :
    c &&& OpcodeRow.mask ⟨name, op, .ab⟩ = OpcodeRow.matchBits ⟨name, op, .ab⟩ ↔
      ∃ a < 256, ∃ b < 256, c = commandWord op a b 0 := by
  have hmask : fieldsOf Format.ab.mask =
      ⟨BitVec.allOnes 8, 0#8, 0#8, BitVec.allOnes 8, BitVec.allOnes 32⟩ := by decide
  rw [OpcodeRow.match_iff_fields]
  simp only [OpcodeRow.mask, fieldsOf_and, hmask, BitVec.and_allOnes, BitVec.and_zero, eq_commandWord_iff]
  constructor
  · obtain ⟨op', a, b, z, w⟩ := fieldsOf c
    intro h
    obtain ⟨rfl, -, -, rfl, rfl⟩ := Fields.mk.inj h
    exact ⟨a.toNat, a.isLt, b.toNat, b.isLt, by simp⟩
  · rintro ⟨a, _, b, _, hf⟩
    rw [hf]
    rfl

/-- The words that match a row of format `W1`: any operand `W`. -/
theorem match_w1_iff :
    c &&& OpcodeRow.mask ⟨name, op, .w1⟩ = OpcodeRow.matchBits ⟨name, op, .w1⟩ ↔
      ∃ w, c = commandWord op 0 0 w := by
  have hmask : fieldsOf Format.w1.mask =
      ⟨BitVec.allOnes 8, BitVec.allOnes 8, BitVec.allOnes 8, BitVec.allOnes 8, 0#32⟩ := by decide
  rw [OpcodeRow.match_iff_fields]
  simp only [OpcodeRow.mask, fieldsOf_and, hmask, BitVec.and_allOnes, BitVec.and_zero, eq_commandWord_iff]
  constructor
  · obtain ⟨op', a, b, z, w⟩ := fieldsOf c
    intro h
    obtain ⟨rfl, rfl, rfl, rfl, -⟩ := Fields.mk.inj h
    exact ⟨w, rfl⟩
  · rintro ⟨w, hf⟩
    rw [hf]
    rfl

end

/-- A word that matches a row of the table is read as a command of that row. -/
theorem exists_decode_of_match {row : OpcodeRow} (hrow : row ∈ opcodeTable) {c : CmdWord}
    (h : c &&& row.mask = row.matchBits) : ∃ i, decode c = .ok i ∧ i.mnemonic = row.mnemonic := by
  obtain ⟨name, op, fmt⟩ := row
  cases fmt <;>
    simp only [opcodeTable, List.mem_cons, OpcodeRow.mk.injEq, reduceCtorEq, and_false, and_true, List.not_mem_nil,
      or_self, or_false, false_or] at hrow
  case z0 =>
    obtain rfl := match_z0_iff.mp h
    rw [decode, fieldsOf_commandWord]
    rcases hrow with ⟨rfl, rfl⟩ | ⟨rfl, rfl⟩ | ⟨rfl, rfl⟩ | ⟨rfl, rfl⟩ |
      ⟨rfl, rfl⟩ | ⟨rfl, rfl⟩ | ⟨rfl, rfl⟩ | ⟨rfl, rfl⟩ <;>
      exact ⟨_, Fields.asZ0_eq_ok_iff.mpr ⟨rfl, rfl⟩, rfl⟩
  case a1 =>
    obtain ⟨a, ha, rfl⟩ := match_a1_iff.mp h
    rw [decode, fieldsOf_commandWord]
    rcases hrow with ⟨rfl, rfl⟩ | ⟨rfl, rfl⟩ | ⟨rfl, rfl⟩ | ⟨rfl, rfl⟩ | ⟨rfl, rfl⟩ | ⟨rfl, rfl⟩ | ⟨rfl, rfl⟩ <;>
      exact ⟨_, Fields.asA1_eq_ok_iff.mpr ⟨a, ha, rfl, rfl⟩, rfl⟩
  case ab =>
    obtain ⟨a, ha, b, hb, rfl⟩ := match_ab_iff.mp h
    rw [decode, fieldsOf_commandWord]
    rcases hrow with ⟨rfl, rfl⟩ | ⟨rfl, rfl⟩ <;>
      exact ⟨_, Fields.asAB_eq_ok_iff.mpr ⟨a, ha, b, hb, rfl, rfl⟩, rfl⟩
  case w1 =>
    obtain ⟨w, rfl⟩ := match_w1_iff.mp h
    rw [decode, fieldsOf_commandWord]
    rcases hrow with ⟨rfl, rfl⟩ | ⟨rfl, rfl⟩ | ⟨rfl, rfl⟩ <;>
      simp only [Fields.toInstr, BitVec.reduceToNat] <;>
      exact ⟨_, Fields.asW1_eq_ok_iff.mpr ⟨w, rfl, rfl⟩, rfl⟩

/-- The word of a command matches a row of the table, of the command's own name. -/
theorem exists_row_of_encode {i : Instr} (h : i.wellFormed = true) :
    ∃ row ∈ opcodeTable, row.mnemonic = i.mnemonic ∧ encode i &&& row.mask = row.matchBits := by
  cases i with
  | enirq a | disirq a | getirqpri a | enexc a | disexc a | getexcpri a | rdreg a =>
    exact ⟨⟨_, _, .a1⟩, by decide, rfl, match_a1_iff.mpr ⟨a, of_decide_eq_true h, rfl⟩⟩
  | setirqpri a b | setexcpri a b =>
    obtain ⟨ha, hb⟩ := Bool.and_eq_true_iff.mp h
    exact ⟨⟨_, _, .ab⟩, by decide, rfl, match_ab_iff.mpr ⟨a, of_decide_eq_true ha, b, of_decide_eq_true hb, rfl⟩⟩
  | tinit | tbusywait | setcb => exact ⟨⟨_, _, .w1⟩, by decide, rfl, match_w1_iff.mpr ⟨_, rfl⟩⟩
  | tdeinit | tstart | tstop | dispatch | enxcpt | disxcpt | enfault | disfault =>
    exact ⟨⟨_, _, .z0⟩, by decide, rfl, match_z0_iff.mpr rfl⟩

/-- No two rows of the table have one name. -/
theorem opcodeTable_mnemonic_inj {r r' : OpcodeRow} (hr : r ∈ opcodeTable) (hr' : r' ∈ opcodeTable)
    (h : r.mnemonic = r'.mnemonic) : r = r' :=
  List.inj_on_of_nodup_map (f := OpcodeRow.mnemonic) (by decide) hr hr' h

/-- Settles O4: a matching word is read by its row's format; a word read as a command is that command's word (O3), which
matches the one row of the command's name. -/
theorem decodeFollowsOpcodeTable : Obligations.DecodeFollowsOpcodeTable := by
  unfold Obligations.DecodeFollowsOpcodeTable
  intro row hrow c
  constructor
  · exact exists_decode_of_match hrow
  · rintro ⟨i, hdec, hname⟩
    obtain ⟨hwf, rfl⟩ := encodeOfDecode c i hdec
    obtain ⟨row', hrow', hname', hmatch⟩ := exists_row_of_encode hwf
    obtain rfl := opcodeTable_mnemonic_inj hrow' hrow (hname'.trans hname)
    exact hmatch

/-! ### Illegal and sample words -/

/-- A word that matches no row is illegal (rule R53). -/
theorem decode_error_of_no_match {c : CmdWord} (h : ∀ row ∈ opcodeTable, c &&& row.mask ≠ row.matchBits) :
    ∃ e, decode c = .error e := by
  cases hdec : decode c with
  | error e => exact ⟨e, rfl⟩
  | ok i =>
    obtain ⟨hwf, rfl⟩ := encodeOfDecode c i hdec
    obtain ⟨row, hrow, -, hmatch⟩ := exists_row_of_encode hwf
    exact absurd hmatch (h row hrow)

/-- Settles O1: the ten words are closed, and the decoder is run on each. -/
theorem sampleWordsDecode : Obligations.SampleWordsDecode := by
  unfold Obligations.SampleWordsDecode
  decide

end Sys2Proof

namespace Sys2Proof.Machine

/-- With an open port, the sequencer takes an illegal word and does nothing else (rule R53). -/
theorem sequencerStep_of_illegal {s : State} {w : CmdWord} {rest : List CmdWord} {e : Illegal} (hbw : s.bw = .idle)
    (hport : s.port = w :: rest) (hdec : decode w = .error e) : sequencerStep s = .next { s with port := rest } := by
  simp only [sequencerStep, hbw, hport, perform, hdec, State.takeCommand, List.tail_cons]

/-- Settles O5: a word that matches no row is illegal, and the sequencer only takes it. -/
theorem illegalWordIsNoOp : Obligations.IllegalWordIsNoOp := by
  unfold Obligations.IllegalWordIsNoOp
  intro s w rest hturn hbw hport hno
  obtain ⟨e, hdec⟩ := decode_error_of_no_match hno
  exact (step_of_nextTurn hturn).trans (sequencerStep_of_illegal hbw hport hdec)

end Sys2Proof.Machine
end

section
/-! PROOFS. IRQ enable and disable (40_irq_enable.md): the place of a line's enable bit (rule R58), what one enable
write does (rules R59, R60), and the round trips (rule R61). -/

namespace Sys2Proof.Machine

/-! ### The place of a line's enable bit -/

/-- The register and the bit of a line are bits [7:5] and [4:0] of the operand (rule R58). -/
theorem irqEnLocate_eq_operand_bits {id : Nat} (hid : id < 256) :
    irqEnLocate id =
      (((BitVec.ofNat 8 id).extractLsb' 5 3).toNat, ((BitVec.ofNat 8 id).extractLsb' 0 5).toNat) := by
  have hreg : ((BitVec.ofNat 8 id).extractLsb' 5 3).toNat = id / 32 := by
    rw [BitVec.extractLsb'_toNat, BitVec.toNat_ofNat, Nat.shiftRight_eq_div_pow]
    omega
  have hbit : ((BitVec.ofNat 8 id).extractLsb' 0 5).toNat = id % 32 := by
    rw [BitVec.extractLsb'_toNat, BitVec.toNat_ofNat, Nat.shiftRight_zero]
    omega
  rw [hreg, hbit]
  rfl

/-- A line is known from the register and the bit of its enable (rule R58). -/
theorem irqEnLocate_injective : Function.Injective irqEnLocate := by
  intro id id' h
  obtain ⟨hreg, hbit⟩ : id / 32 = id' / 32 ∧ id % 32 = id' % 32 := Prod.ext_iff.mp h
  calc
    id = 32 * (id / 32) + id % 32 := (Nat.div_add_mod id 32).symm
    _ = 32 * (id' / 32) + id' % 32 := by rw [hreg, hbit]
    _ = id' := Nat.div_add_mod id' 32

/-- Settles O12: quotient and remainder by 32 give the bounds, the operand's bits are these two numbers, and together
they determine the identifier. -/
theorem irqEnableBitPlacement : Obligations.IrqEnableBitPlacement := by
  unfold Obligations.IrqEnableBitPlacement
  intro id
  constructor
  · intro hid
    have hbounds : id / 32 ≤ 4 ∧ id % 32 ≤ 31 ∧ (id / 32 = 4 → id % 32 ≤ 10) := by omega
    obtain ⟨hreg, hbit, hlast⟩ := hbounds
    exact ⟨rfl, hreg, hbit, hlast, irqEnLocate_eq_operand_bits (by omega), fun _ _ h => irqEnLocate_injective h⟩
  · intro hlow hhigh
    omega

/-! ### One enable write -/

/-- A bit write overrides an earlier one of the same bit. -/
theorem setBit_setBit (w : Word) (i : Nat) (b c : Bool) : setBit (setBit w i b) i c = setBit w i c := by
  apply BitVec.eq_of_getLsbD_eq
  intro j _
  simp only [setBit_getLsbD]
  split <;> rfl

/-- Writing to a bit the value it has changes nothing. -/
theorem setBit_getLsbD_self (w : Word) (i : Nat) : setBit w i (w.getLsbD i) = w := by
  apply BitVec.eq_of_getLsbD_eq
  intro j _
  rw [setBit_getLsbD]
  split
  · next hj => rw [hj.1]
  · rfl

/-- A write of an enable register overrides an earlier one of the same register. -/
theorem State.setEn_setEn (s : State) (r : Nat) (v w : Word) : (s.setEn r v).setEn r w = s.setEn r w := by
  simp only [State.setEn, Vector.setIfInBounds_setIfInBounds]

/-- Writing to an enable register the value it has changes nothing. -/
theorem State.setEn_enAt (s : State) (r : Nat) : s.setEn r (s.enAt r) = s := by
  have hen : s.en.setIfInBounds r (s.enAt r) = s.en := by
    apply Vector.ext
    intro i hi
    rw [Vector.getElem_setIfInBounds]
    split
    · next hr =>
      subst hr
      simp [State.enAt, Vector.getD, hi]
    · rfl
  rw [State.setEn, hen]

/-- The view of a line is the bit that its enable write addresses. -/
theorem State.irqEn_eq (s : State) (id : Nat) : s.irqEn id = (s.enAt (id / 32)).getLsbD (id % 32) := rfl

/-- The enable write of a line is a write of its bit (rules R59, R60). -/
theorem State.setIrqEnable_of_line (s : State) {id : Nat} (hid : id ≤ 138) (b : Bool) :
    s.setIrqEnable id b = s.setEn (id / 32) (setBit (s.enAt (id / 32)) (id % 32) b) :=
  if_pos hid

/-- An identifier above 138 names no line: nothing is written (rules R59, R60). -/
theorem State.setIrqEnable_of_no_line (s : State) {id : Nat} (hid : 138 < id) (b : Bool) : s.setIrqEnable id b = s :=
  if_neg (Nat.not_le.mpr hid)

/-- An enable write leaves everything but the enable registers (rules R59, R60). -/
theorem State.setIrqEnable_frame (s : State) (id : Nat) (b : Bool) : { s.setIrqEnable id b with en := s.en } = s := by
  rcases s.setIrqEnable_cases id b with ⟨_, e⟩ | ⟨_, e⟩
  · rw [e]
    rfl
  · rw [e]

/-- An enable write sets the bit of its line, if it has one, and no other bit of the bank (rules R59, R60). -/
theorem State.enAt_setIrqEnable_getLsbD (s : State) (id : Nat) (b : Bool) (r j : Nat) :
    ((s.setIrqEnable id b).enAt r).getLsbD j =
      if id ≤ 138 ∧ r = id / 32 ∧ j = id % 32 then b else (s.enAt r).getLsbD j := by
  rcases s.setIrqEnable_cases id b with ⟨hid, e⟩ | ⟨hid, e⟩
  · rw [e, State.enAt_setEn]
    by_cases hr : r = id / 32
    · subst hr
      have hbit : j = id % 32 ∧ j < 32 ↔ j = id % 32 := by omega
      have hreg : id / 32 < 5 := by omega
      simp only [setBit_getLsbD, hid, hreg, hbit, true_and, and_self, if_true]
    · rw [if_neg (by omega), if_neg (by omega)]
  · rw [e, if_neg (by omega)]

/-- Of two enable writes of one line the second decides. -/
theorem State.setIrqEnable_setIrqEnable (s : State) (id : Nat) (b c : Bool) :
    (s.setIrqEnable id b).setIrqEnable id c = s.setIrqEnable id c := by
  rcases s.setIrqEnable_cases id b with ⟨hid, e⟩ | ⟨_, e⟩
  · have hreg : id / 32 < 5 := by omega
    rw [e, State.setIrqEnable_of_line _ hid, State.setIrqEnable_of_line _ hid, State.setEn_setEn, State.enAt_setEn,
      if_pos ⟨rfl, hreg⟩, setBit_setBit]
  · rw [e]

/-- Writing to a line's enable the value it has changes nothing. -/
theorem State.setIrqEnable_irqEn (s : State) (id : Nat) : s.setIrqEnable id (s.irqEn id) = s := by
  rcases s.setIrqEnable_cases id (s.irqEn id) with ⟨_, e⟩ | ⟨_, e⟩
  · rw [e, State.irqEn_eq, setBit_getLsbD_self, State.setEn_enAt]
  · exact e

/-! ### The two commands -/

/-- `ENIRQ` writes a one to its line's enable (rule R59). -/
theorem exec_enirq (id : Nat) (s : State) : exec (.enirq id) s = .next (s.setIrqEnable id true) := rfl

/-- `DISIRQ` writes a zero to its line's enable (rule R60). -/
theorem exec_disirq (id : Nat) (s : State) : exec (.disirq id) s = .next (s.setIrqEnable id false) := rfl

/-- Settles O16: the word is the one the encoder gives; the command is one enable write, of a one. -/
theorem enirqSetsItsLineOnly : Obligations.EnirqSetsItsLineOnly := by
  unfold Obligations.EnirqSetsItsLineOnly
  intro id s
  refine ⟨fun hid => decodeOfEncode (.enirq id) (decide_eq_true (by omega)), fun hid => ?_,
    s.setIrqEnable id true, exec_enirq id s, s.setIrqEnable_frame id true, fun r b _ _ => ?_⟩
  · rw [exec_enirq, s.setIrqEnable_of_no_line hid]
  · exact s.enAt_setIrqEnable_getLsbD id true r b

/-- Settles O17: the word is the one the encoder gives; the command is one enable write, of a zero. -/
theorem disirqClearsItsLineOnly : Obligations.DisirqClearsItsLineOnly := by
  unfold Obligations.DisirqClearsItsLineOnly
  intro id s
  refine ⟨fun hid => decodeOfEncode (.disirq id) (decide_eq_true (by omega)), fun hid => ?_,
    s.setIrqEnable id false, exec_disirq id s, s.setIrqEnable_frame id false, fun r b _ _ => ?_⟩
  · rw [exec_disirq, s.setIrqEnable_of_no_line hid]
  · exact s.enAt_setIrqEnable_getLsbD id false r b

/-- Settles O18: the second write decides, so a round trip is one write, of the value the line had, and a command twice
is the command once. -/
theorem irqEnableRoundTrip : Obligations.IrqEnableRoundTrip := by
  unfold Obligations.IrqEnableRoundTrip
  intro id s
  refine ⟨fun _ hoff => ⟨_, exec_enirq id s, ?_⟩, fun _ hon => ⟨_, exec_disirq id s, ?_⟩,
    ⟨_, exec_enirq id s, ?_⟩, ⟨_, exec_disirq id s, ?_⟩⟩
  · rw [exec_disirq, State.setIrqEnable_setIrqEnable, ← hoff, State.setIrqEnable_irqEn]
  · rw [exec_enirq, State.setIrqEnable_setIrqEnable, ← hon, State.setIrqEnable_irqEn]
  · rw [exec_enirq, State.setIrqEnable_setIrqEnable]
  · rw [exec_disirq, State.setIrqEnable_setIrqEnable]

end Sys2Proof.Machine
end

section
/-! PROOFS. IRQ priorities (41_irq_priority.md): the place of a line's priority field (rule R62), what one priority
write does (rule R63), the read (rule R64), and the read after the write (rule R65). -/

namespace Sys2Proof.Machine

/-! ### The place of a line's priority field -/

/-- The register of a line is bits [7:2] of the operand, and the shift is bits [1:0] followed by `101` (rule R62). -/
theorem irqPriLocate_eq_operand_bits {id : Nat} (hid : id < 256) :
    irqPriLocate id =
      (((BitVec.ofNat 8 id).extractLsb' 2 6).toNat,
        ((BitVec.ofNat 8 id).extractLsb' 0 2 ++ 0b101#3).toNat) := by
  have hreg : ((BitVec.ofNat 8 id).extractLsb' 2 6).toNat = id / 4 := by
    rw [BitVec.extractLsb'_toNat, BitVec.toNat_ofNat, Nat.shiftRight_eq_div_pow]
    omega
  have hlane : ((BitVec.ofNat 8 id).extractLsb' 0 2).toNat = id % 4 := by
    rw [BitVec.extractLsb'_toNat, BitVec.toNat_ofNat, Nat.shiftRight_zero]
    omega
  have hshift : ((BitVec.ofNat 8 id).extractLsb' 0 2 ++ 0b101#3).toNat = 8 * (id % 4) + 5 := by
    rw [BitVec.toNat_append, hlane, ← Nat.shiftLeft_add_eq_or_of_lt (BitVec.isLt _), Nat.shiftLeft_eq, Nat.mul_comm]
    rfl
  rw [hreg, hshift]
  rfl

/-- A line is known from the register and the shift of its priority field (rule R62). -/
theorem irqPriLocate_injective : Function.Injective irqPriLocate := by
  intro id id' h
  obtain ⟨hreg, hshift⟩ : id / 4 = id' / 4 ∧ 8 * (id % 4) + 5 = 8 * (id' % 4) + 5 := Prod.ext_iff.mp h
  omega

/-- Settles O13: quotient and remainder by 4 give the bounds, the operand's bits are the register and the shift, and
together they determine the identifier. -/
theorem irqPriorityFieldPlacement : Obligations.IrqPriorityFieldPlacement := by
  unfold Obligations.IrqPriorityFieldPlacement
  intro id hid
  have hreg : id / 4 ≤ 34 := by omega
  have hshift : 8 * (id % 4) + 5 = 5 ∨ 8 * (id % 4) + 5 = 13 ∨ 8 * (id % 4) + 5 = 21 ∨ 8 * (id % 4) + 5 = 29 := by
    omega
  exact ⟨rfl, hreg, hshift, irqPriLocate_eq_operand_bits (by omega), fun _ _ h => irqPriLocate_injective h⟩

/-! ### One priority write -/

/-- Reading a field that does not meet the field written gives what it gave before. -/
theorem fieldExtract_fieldInsert_of_disjoint (r : Word) {s s' : Nat} (p : BitVec 3) (h : s + 3 ≤ s' ∨ s' + 3 ≤ s) :
    fieldExtract (fieldInsert r s p) s' = fieldExtract r s' := by
  apply BitVec.eq_of_getLsbD_eq
  intro j hj
  have hj3 : j < 3 := hj
  rw [fieldExtract_getLsbD, fieldExtract_getLsbD, fieldInsert_getLsbD, if_neg (by omega)]

/-- The state in which the priority field of line `id` is `p` (rules R62, R63). -/
def State.setIrqPri (s : State) (id : Nat) (p : BitVec 3) : State :=
  s.setIpr (id / 4) (fieldInsert (s.iprAt (id / 4)) (8 * (id % 4) + 5) p)

/-- The view of a line is the field that its priority write addresses. -/
theorem State.irqPri_eq (s : State) (id : Nat) :
    s.irqPri id = fieldExtract (s.iprAt (id / 4)) (8 * (id % 4) + 5) := rfl

section
variable (s : State) {id : Nat} (hid : id ≤ 138) (p : BitVec 3)
include hid

/-- A priority write changes the word of its own register only. -/
theorem State.iprAt_setIrqPri (r : Nat) :
    (s.setIrqPri id p).iprAt r =
      if r = id / 4 then fieldInsert (s.iprAt r) (8 * (id % 4) + 5) p else s.iprAt r := by
  have hreg : id / 4 < 35 := by omega
  rw [State.setIrqPri, State.iprAt_setIpr]
  by_cases hr : r = id / 4
  · rw [if_pos ⟨hr.symm, hreg⟩, if_pos hr, hr]
  · rw [if_neg fun ⟨h, _⟩ => hr h.symm, if_neg hr]

/-- A priority write sets the three bits of its field and no other bit of the bank (rule R63). -/
theorem State.iprAt_setIrqPri_getLsbD (r j : Nat) :
    ((s.setIrqPri id p).iprAt r).getLsbD j =
      if r = id / 4 ∧ 8 * (id % 4) + 5 ≤ j ∧ j ≤ 8 * (id % 4) + 7 then p.getLsbD (j - (8 * (id % 4) + 5))
      else (s.iprAt r).getLsbD j := by
  have hfield : 8 * (id % 4) + 5 ≤ j ∧ j < 8 * (id % 4) + 5 + 3 ∧ j < 32 ↔
      8 * (id % 4) + 5 ≤ j ∧ j ≤ 8 * (id % 4) + 7 := by omega
  rw [s.iprAt_setIrqPri hid p r]
  by_cases hr : r = id / 4
  · simp only [hr, true_and, if_true, fieldInsert_getLsbD, hfield]
  · simp only [hr, false_and, if_false]

/-- A line has the priority that was written to it. -/
theorem State.irqPri_setIrqPri_same : (s.setIrqPri id p).irqPri id = p := by
  rw [State.irqPri_eq, s.iprAt_setIrqPri hid, if_pos rfl, fieldExtract_fieldInsert _ _ _ (by omega)]

/-- A priority write leaves the priority of every other line: its field is in another register, or in another lane of
the same one. -/
theorem State.irqPri_setIrqPri_of_ne {id' : Nat} (hne : id' ≠ id) :
    (s.setIrqPri id p).irqPri id' = s.irqPri id' := by
  rw [State.irqPri_eq, State.irqPri_eq, s.iprAt_setIrqPri hid]
  by_cases hreg : id' / 4 = id / 4
  · rw [if_pos hreg, fieldExtract_fieldInsert_of_disjoint _ _ (by omega)]
  · rw [if_neg hreg]

end

/-! ### The two commands -/

section
variable {id : Nat}

/-- `SETIRQPRI` writes the low three bits of the priority to its line's field (rule R63). -/
theorem exec_setirqpri_of_line (hid : id ≤ 138) (pri : Nat) (s : State) :
    exec (.setirqpri id pri) s = .next (s.setIrqPri id (BitVec.ofNat 3 pri)) :=
  if_pos hid

/-- `SETIRQPRI` of an identifier above 138 does nothing (rule R63). -/
theorem exec_setirqpri_of_no_line (hid : 138 < id) (pri : Nat) (s : State) : exec (.setirqpri id pri) s = .next s :=
  if_neg (Nat.not_le.mpr hid)

/-- `GETIRQPRI` responds the priority of its line (rule R64). -/
theorem exec_getirqpri_of_line (hid : id ≤ 138) (s : State) :
    exec (.getirqpri id) s = .next { s with out := s.out ++ [.resp ((s.irqPri id).setWidth 32)] } :=
  if_pos hid

/-- `GETIRQPRI` of an identifier above 138 responds 0 (rule R64). -/
theorem exec_getirqpri_of_no_line (hid : 138 < id) (s : State) :
    exec (.getirqpri id) s = .next { s with out := s.out ++ [.resp 0] } :=
  if_neg (Nat.not_le.mpr hid)

end

/-- Settles O19: the word is the one the encoder gives; for a line the command is one priority write, of the low three
bits of `pri`, and for any other identifier the state stays. -/
theorem setirqpriWritesItsFieldOnly : Obligations.SetirqpriWritesItsFieldOnly := by
  unfold Obligations.SetirqpriWritesItsFieldOnly
  intro id pri s
  have hword (ha : id ≤ 255) (hb : pri ≤ 255) : (Instr.setirqpri id pri).wellFormed = true :=
    Bool.and_eq_true_iff.mpr ⟨decide_eq_true (by omega), decide_eq_true (by omega)⟩
  refine ⟨fun ha hb => decodeOfEncode (.setirqpri id pri) (hword ha hb),
    fun hid => exec_setirqpri_of_no_line hid pri s, ?_⟩
  by_cases hid : id ≤ 138
  · refine ⟨_, exec_setirqpri_of_line hid pri s, rfl, fun r b _ _ => ?_⟩
    rw [s.iprAt_setIrqPri_getLsbD hid]
    simp only [hid, true_and]
    split
    · next hfield =>
      rw [BitVec.getLsbD_ofNat, decide_eq_true (by omega), Bool.true_and]
    · rfl
  · refine ⟨s, exec_setirqpri_of_no_line (by omega) pri s, rfl, fun r b _ _ => ?_⟩
    rw [if_neg fun ⟨h, _⟩ => hid h]

/-- Settles O20: the word is the one the encoder gives; the response is the view of the line, which is the quotient of
its register by the field's weight, modulo 8. -/
theorem getirqpriRespondsItsField : Obligations.GetirqpriRespondsItsField := by
  unfold Obligations.GetirqpriRespondsItsField
  intro id s
  refine ⟨fun ha => decodeOfEncode (.getirqpri id) (decide_eq_true (by omega)),
    fun hid => ⟨_, ?_, exec_getirqpri_of_line hid s⟩, fun hid => exec_getirqpri_of_no_line hid s⟩
  rw [BitVec.toNat_setWidth_of_le (by decide), State.irqPri_eq, fieldExtract_toNat]

/-- Settles O21: the write gives its line the low three bits of `pri`, which is `pri mod 8`, and leaves the priority
of every other line. -/
theorem irqPriorityReadBack : Obligations.IrqPriorityReadBack := by
  unfold Obligations.IrqPriorityReadBack
  intro id pri s hid
  have hmod : (BitVec.ofNat 3 pri).setWidth 32 = BitVec.ofNat 32 (pri % 8) := by
    apply BitVec.eq_of_toNat_eq
    rw [BitVec.toNat_setWidth_of_le (by decide), BitVec.toNat_ofNat, BitVec.toNat_ofNat]
    omega
  refine ⟨_, exec_setirqpri_of_line hid pri s, ?_, fun id' hid' hne => ⟨_, exec_getirqpri_of_line hid' s, ?_⟩⟩
  · rw [exec_getirqpri_of_line hid, s.irqPri_setIrqPri_same hid, hmod]
  · rw [exec_getirqpri_of_line hid', s.irqPri_setIrqPri_of_ne hid _ hne]

end Sys2Proof.Machine
end

section
/-! PROOFS. Exception enable and disable (42_exception_enable.md): the table of the enable bits (rule R66) and what one
enable write does (rules R67, R68). -/

namespace Sys2Proof.Machine

/-! ### The table of the enable bits -/

/-- The three fault kinds have adjacent bits of `SHC`, from bit 16 on (rule R66, decision D9). -/
theorem excEnLocate_of_fault {kind : Nat} (hlow : 3 ≤ kind) (hhigh : kind ≤ 5) :
    excEnLocate kind = some (.shcBit (kind + 13)) := by
  obtain rfl | rfl | rfl : kind = 3 ∨ kind = 4 ∨ kind = 5 := by omega
  all_goals rfl

/-- A kind other than the three faults and the timer has no enable bit (rule R66). -/
theorem excEnLocate_eq_none {kind : Nat} (h3 : kind ≠ 3) (h4 : kind ≠ 4) (h5 : kind ≠ 5) (h9 : kind ≠ 9) :
    excEnLocate kind = none := by
  match kind with
  | 0 | 1 | 2 | 6 | 7 | 8 => rfl
  | 3 | 4 | 5 | 9 => contradiction
  | n + 10 => rfl

/-- Settles O15: the three faults by their place in `SHC`, the timer's row by definition, and no bit elsewhere. -/
theorem exceptionEnableTable : Obligations.ExceptionEnableTable := by
  unfold Obligations.ExceptionEnableTable
  exact ⟨excEnLocate_of_fault (by decide) (by decide), excEnLocate_of_fault (by decide) (by decide),
    excEnLocate_of_fault (by decide) (by decide), rfl, fun _ => excEnLocate_eq_none⟩

/-! ### One enable write -/

section
variable (s : State) {kind : Nat} (b : Bool)

/-- The enable write of a fault kind is a write of its bit of `SHC` (rules R67, R68). -/
theorem State.setExcEnable_of_fault (hlow : 3 ≤ kind) (hhigh : kind ≤ 5) :
    s.setExcEnable kind b = s.setShc (setBit s.shc (kind + 13) b) := by
  rw [State.setExcEnable, excEnLocate_of_fault hlow hhigh]

/-- The enable write of a fault kind leaves everything but `SHC` (rules R67, R68). -/
theorem State.setExcEnable_frame_of_fault (hlow : 3 ≤ kind) (hhigh : kind ≤ 5) :
    { s.setExcEnable kind b with shc := s.shc } = s := by
  rw [s.setExcEnable_of_fault b hlow hhigh]
  rfl

/-- The enable write of a fault kind sets its bit of `SHC` and no other bit (rules R67, R68). -/
theorem State.shc_setExcEnable_getLsbD_of_fault (hlow : 3 ≤ kind) (hhigh : kind ≤ 5) (j : Nat) :
    (s.setExcEnable kind b).shc.getLsbD j = if j = kind + 13 then b else s.shc.getLsbD j := by
  have hbit : j = kind + 13 ∧ j < 32 ↔ j = kind + 13 := by omega
  rw [s.setExcEnable_of_fault b hlow hhigh, State.setShc_shc, setBit_getLsbD]
  simp only [hbit]

/-- The enable write of the timer kind writes `INTEN`; its read half clears `COUNT` (rules R36, R37, R67, R68). -/
theorem State.setExcEnable_of_timer :
    s.setExcEnable 9 b = { s with tctrl := { s.tctrl with inten := b, count := false } } :=
  s.ctrlSetBit_inten b

/-- The enable write of a kind with no enable bit changes nothing (rules R67, R68). -/
theorem State.setExcEnable_of_no_bit (hkind : kind ≤ 2 ∨ (6 ≤ kind ∧ kind ≤ 8) ∨ 10 ≤ kind) :
    s.setExcEnable kind b = s := by
  rw [State.setExcEnable, excEnLocate_eq_none (by omega) (by omega) (by omega) (by omega)]

end

/-! ### The two commands -/

/-- `ENEXC` writes a one to its kind's enable (rule R67). -/
theorem exec_enexc (kind : Nat) (s : State) : exec (.enexc kind) s = .next (s.setExcEnable kind true) := rfl

/-- `DISEXC` writes a zero to its kind's enable (rule R68). -/
theorem exec_disexc (kind : Nat) (s : State) : exec (.disexc kind) s = .next (s.setExcEnable kind false) := rfl

/-- Settles O22: the word is the one the encoder gives; the command is one enable write, of a one, which is of `SHC`, of
`INTEN` or of nothing by the kind. -/
theorem enexcSetsItsEnableOnly : Obligations.EnexcSetsItsEnableOnly := by
  unfold Obligations.EnexcSetsItsEnableOnly
  intro kind s
  rw [exec_enexc]
  refine ⟨fun hword => decodeOfEncode (.enexc kind) (decide_eq_true (by omega)), fun hlow hhigh => ?_, ?_,
    fun hkind => ?_⟩
  · exact ⟨_, rfl, s.setExcEnable_frame_of_fault true hlow hhigh,
      fun j _ => s.shc_setExcEnable_getLsbD_of_fault true hlow hhigh j⟩
  · rintro rfl
    rw [s.setExcEnable_of_timer]
  · rw [s.setExcEnable_of_no_bit true hkind]

/-- Settles O23: the word is the one the encoder gives; the command is one enable write, of a zero, which is of `SHC`,
of `INTEN` or of nothing by the kind. -/
theorem disexcClearsItsEnableOnly : Obligations.DisexcClearsItsEnableOnly := by
  unfold Obligations.DisexcClearsItsEnableOnly
  intro kind s
  rw [exec_disexc]
  refine ⟨fun hword => decodeOfEncode (.disexc kind) (decide_eq_true (by omega)), fun hlow hhigh => ?_, ?_,
    fun hkind => ?_⟩
  · exact ⟨_, rfl, s.setExcEnable_frame_of_fault false hlow hhigh,
      fun j _ => s.shc_setExcEnable_getLsbD_of_fault false hlow hhigh j⟩
  · rintro rfl
    rw [s.setExcEnable_of_timer]
  · rw [s.setExcEnable_of_no_bit false hkind]

end Sys2Proof.Machine
end

section
/-! PROOFS. Exception priorities (43_exception_priority.md): the table of the priority fields (rule R69), what one
priority write does (rules R70, R72), the read (rule R71), and the read after the write (rule R73). -/

namespace Sys2Proof.Machine

/-! ### The table of the priority fields -/

/-- The rows of rule R69 that have a field: the kind, and its register and shift. -/
def excPriRows : List (Nat × PriReg × Nat) :=
  [(3, .pri1, 5), (4, .pri1, 13), (5, .pri1, 21), (6, .pri2, 29), (7, .pri3, 5), (8, .pri3, 21), (9, .pri3, 29)]

/-- A kind's field is the one of its row (rule R69). -/
theorem mem_excPriRows {kind : Nat} {loc : PriReg × Nat} (h : excPriLocate kind = some loc) :
    (kind, loc) ∈ excPriRows := by
  match kind with
  | 0 | 1 | 2 => cases h
  | 3 | 4 | 5 | 6 | 7 | 8 | 9 => cases h; decide
  | n + 10 => cases h

/-- No two kinds share a field (rule R69). -/
theorem excPriLocate_inj {kind kind' : Nat} {loc : PriReg × Nat} (h : excPriLocate kind = some loc)
    (h' : excPriLocate kind' = some loc) : kind = kind' := by
  have hrows : ∀ row ∈ excPriRows, ∀ row' ∈ excPriRows, row.2 = row'.2 → row.1 = row'.1 := by decide
  exact hrows _ (mem_excPriRows h) _ (mem_excPriRows h') rfl

section
variable {kind : Nat} {r : PriReg} {sh : Nat} (hloc : excPriLocate kind = some (r, sh))
include hloc

/-- A kind's field is the high three bits of a lane of its register (rules R19, R69). -/
theorem excPriLocate_shift : sh ≤ 29 ∧ sh % 8 = 5 := by
  have hrows : ∀ row ∈ excPriRows, row.2.2 ≤ 29 ∧ row.2.2 % 8 = 5 := by decide
  exact hrows _ (mem_excPriRows hloc)

/-- The fields of two kinds in one register are in different lanes, so they do not meet (rule R69). -/
theorem excPriLocate_disjoint {kind' sh' : Nat} (hloc' : excPriLocate kind' = some (r, sh')) (hne : kind' ≠ kind) :
    sh + 3 ≤ sh' ∨ sh' + 3 ≤ sh := by
  obtain ⟨_, hlane⟩ := excPriLocate_shift hloc
  obtain ⟨_, hlane'⟩ := excPriLocate_shift hloc'
  have hshift : sh ≠ sh' := by
    rintro rfl
    exact hne (excPriLocate_inj hloc' hloc)
  omega

end

/-- Settles O14: the seven rows and the four masks by evaluation, no field for any kind outside 3 to 9, and the table
injective. -/
theorem exceptionPriorityTable : Obligations.ExceptionPriorityTable := by
  unfold Obligations.ExceptionPriorityTable
  refine ⟨rfl, rfl, rfl, rfl, rfl, rfl, rfl, fun kind hkind => ?_, fun _ _ _ h h' => excPriLocate_inj h h',
    rfl, rfl, rfl, rfl⟩
  exact (excPriLocate_eq_none_iff kind).mpr (by omega)

/-! ### One priority write -/

/-- A priority up to 7 fits its three bits. -/
theorem setWidth_ofNat_priority {p : Nat} (hp : p ≤ 7) : (BitVec.ofNat 3 p).setWidth 32 = BitVec.ofNat 32 p :=
  BitVec.setWidth_ofNat_of_le_of_lt (by decide) (by omega)

/-- The state in which the field at shift `sh` of an exception priority register is `p` (rule R70). -/
def State.setPriField (s : State) (r : PriReg) (sh : Nat) (p : BitVec 3) : State :=
  s.setPri r (fieldInsert (s.priAt r) sh p)

section
variable (s : State)

/-- A field write leaves everything but the exception priority registers (rule R70). -/
theorem State.setPriField_frame (r : PriReg) (sh : Nat) (p : BitVec 3) :
    { s.setPriField r sh p with pri1 := s.pri1, pri2 := s.pri2, pri3 := s.pri3 } = s := by
  cases r <;> rfl

/-- A field write inserts the field into its register (rules R70, R72). -/
theorem State.priAt_setPriField_same (r : PriReg) (sh : Nat) (p : BitVec 3) :
    (s.setPriField r sh p).priAt r = fieldInsert (s.priAt r) sh p :=
  (s.priAt_setPri r r _).trans (if_pos rfl)

/-- A field write leaves the two other registers (rule R70). -/
theorem State.priAt_setPriField_of_ne {r r' : PriReg} (hne : r' ≠ r) (sh : Nat) (p : BitVec 3) :
    (s.setPriField r sh p).priAt r' = s.priAt r' :=
  (s.priAt_setPri r r' _).trans (if_neg hne.symm)

/-- The priority of a kind with a field is that field (rule R71). -/
theorem State.excPri_of_field {kind : Nat} {r : PriReg} {sh : Nat} (hloc : excPriLocate kind = some (r, sh)) :
    s.excPri kind = some (fieldExtract (s.priAt r) sh) := by
  rw [State.excPri, hloc]

/-- A kind with no field has no priority (rule R71). -/
theorem State.excPri_of_no_field {kind : Nat} (hloc : excPriLocate kind = none) : s.excPri kind = none := by
  rw [State.excPri, hloc]

section
variable {kind : Nat} {r : PriReg} {sh : Nat} (hloc : excPriLocate kind = some (r, sh)) (p : BitVec 3)
include hloc

/-- A kind has the priority that was written to its field (rule R73). -/
theorem State.excPri_setPriField_same : (s.setPriField r sh p).excPri kind = some p := by
  obtain ⟨hle, _⟩ := excPriLocate_shift hloc
  rw [State.excPri_of_field _ hloc, State.priAt_setPriField_same, fieldExtract_fieldInsert _ _ _ hle]

/-- A write to one kind's field leaves the priority of every other kind: it has no field, or its field is in another
register, or in another lane of the same one (rule R73). -/
theorem State.excPri_setPriField_of_ne {kind' : Nat} (hne : kind' ≠ kind) :
    (s.setPriField r sh p).excPri kind' = s.excPri kind' := by
  cases hloc' : excPriLocate kind' with
  | none => rw [State.excPri_of_no_field _ hloc', State.excPri_of_no_field _ hloc']
  | some loc =>
    obtain ⟨r', sh'⟩ := loc
    rw [State.excPri_of_field _ hloc', State.excPri_of_field _ hloc']
    by_cases hr : r' = r
    · subst hr
      rw [State.priAt_setPriField_same,
        fieldExtract_fieldInsert_of_disjoint _ _ (excPriLocate_disjoint hloc hloc' hne)]
    · rw [s.priAt_setPriField_of_ne hr]

end

end

/-! ### The two commands -/

/-- The response to a reading of a priority: 0 where there is none (rule R71). -/
def excPriResponse (p : Option (BitVec 3)) : Word := p.elim 0 (·.setWidth 32)

section
variable {kind : Nat} (s : State)

/-- `SETEXCPRI` of a priority up to 7 writes it to its kind's field (rule R70). -/
theorem exec_setexcpri_of_field {r : PriReg} {sh pri : Nat} (hloc : excPriLocate kind = some (r, sh)) (hpri : pri ≤ 7) :
    exec (.setexcpri kind pri) s = .next (s.setPriField r sh (BitVec.ofNat 3 pri)) := by
  simp only [exec, execSetexcpri, hloc]
  exact if_neg (Nat.not_lt.mpr hpri)

/-- `SETEXCPRI` of a priority above 7 has no result for a kind with a field (rule R70, decision D8). -/
theorem exec_setexcpri_of_above_seven {loc : PriReg × Nat} {pri : Nat} (hloc : excPriLocate kind = some loc)
    (hpri : 7 < pri) : exec (.setexcpri kind pri) s = .refused .priorityAboveSeven := by
  simp only [exec, execSetexcpri, hloc]
  exact if_pos hpri

/-- `SETEXCPRI` of a kind with no field does nothing, whatever the priority (rule R70). -/
theorem exec_setexcpri_of_no_field (hloc : excPriLocate kind = none) (pri : Nat) :
    exec (.setexcpri kind pri) s = .next s := by
  simp only [exec, execSetexcpri, hloc]

/-- `GETEXCPRI` responds the priority of its kind (rule R71). -/
theorem exec_getexcpri (kind : Nat) :
    exec (.getexcpri kind) s = .next { s with out := s.out ++ [.resp (excPriResponse (s.excPri kind))] } := by
  simp only [exec, execGetexcpri]
  cases s.excPri kind <;> rfl

end

/-- Settles O25: the word is the one the encoder gives; a priority up to 7 for a kind with a field is one field write,
whose bits are the priority's; the two other cases are the command's own. -/
theorem setexcpriWritesItsFieldOnly : Obligations.SetexcpriWritesItsFieldOnly := by
  unfold Obligations.SetexcpriWritesItsFieldOnly
  intro kind pri s
  have hword (ha : kind ≤ 255) (hb : pri ≤ 255) : (Instr.setexcpri kind pri).wellFormed = true :=
    Bool.and_eq_true_iff.mpr ⟨decide_eq_true (by omega), decide_eq_true (by omega)⟩
  refine ⟨fun ha hb => decodeOfEncode (.setexcpri kind pri) (hword ha hb), fun r sh hloc hpri => ?_,
    fun _ hloc hpri => exec_setexcpri_of_above_seven s hloc hpri,
    fun hloc => exec_setexcpri_of_no_field s hloc pri⟩
  refine ⟨_, exec_setexcpri_of_field s hloc hpri, s.setPriField_frame _ _ _,
    fun _ hne => s.priAt_setPriField_of_ne hne _ _, fun b hb => ?_⟩
  have hfield : sh ≤ b ∧ b < sh + 3 ∧ b < 32 ↔ sh ≤ b ∧ b ≤ sh + 2 := by omega
  rw [State.priAt_setPriField_same, fieldInsert_getLsbD]
  simp only [hfield]
  split
  · rw [BitVec.getLsbD_ofNat, decide_eq_true (by omega), Bool.true_and]
  · rfl

/-- Settles O26: the field write clears with the field's mask, which is 7 shifted to the field, whatever the row. -/
theorem uniformClearingMask : Obligations.UniformClearingMask := by
  unfold Obligations.UniformClearingMask
  intro kind pri r sh s hloc hpri
  refine ⟨_, exec_setexcpri_of_field s hloc hpri, ?_⟩
  rw [State.priAt_setPriField_same, fieldInsert, fieldMask, setWidth_ofNat_priority hpri]

/-- Settles O27: the word is the one the encoder gives; the response is the kind's field, which is the quotient of its
register by the field's weight, modulo 8, or 0 where the kind has none. -/
theorem getexcpriRespondsItsField : Obligations.GetexcpriRespondsItsField := by
  unfold Obligations.GetexcpriRespondsItsField
  intro kind s
  refine ⟨fun ha => decodeOfEncode (.getexcpri kind) (decide_eq_true (by omega)),
    fun r sh hloc => ⟨_, ?_, exec_getexcpri s kind⟩, fun hloc => ?_⟩
  · rw [s.excPri_of_field hloc, excPriResponse, Option.elim_some, BitVec.toNat_setWidth_of_le (by decide),
      fieldExtract_toNat]
  · rw [exec_getexcpri, s.excPri_of_no_field hloc]
    rfl

/-- Settles O28: the write gives its kind the priority, which fits the field, and leaves the priority of every other
kind, so the response to its reading stays. -/
theorem exceptionPriorityReadBack : Obligations.ExceptionPriorityReadBack := by
  unfold Obligations.ExceptionPriorityReadBack
  intro kind p s hlow hhigh hp
  obtain ⟨⟨r, sh⟩, hloc⟩ : ∃ loc, excPriLocate kind = some loc :=
    Option.ne_none_iff_exists'.mp fun hnone => (excPriLocate_eq_none_iff kind).mp hnone ⟨hlow, hhigh⟩
  refine ⟨_, exec_setexcpri_of_field s hloc hp, ?_, fun kind' hne => ⟨_, exec_getexcpri s kind', ?_⟩⟩
  · rw [exec_getexcpri, s.excPri_setPriField_same hloc, excPriResponse, Option.elim_some, setWidth_ofNat_priority hp]
  · rw [exec_getexcpri, s.excPri_setPriField_of_ne hloc _ hne]

end Sys2Proof.Machine
end

section
/-! PROOFS. Timer commands (44_timer.md): arming and its refusal (rules R74, R75, R79), the other commands (rules R76 to
R78), pause and resume (rules R82, R118), the poll (rule R80), and when a busy-wait ends or hangs (rules R81, R111). -/

namespace Sys2Proof.Machine

/-! ### The arming commands -/

section
variable {dur : Nat} {s u : State} {out : Host.Outcome State Fault Refusal}

/-- An arming command with a representable reload value arms with exactly that value (rule R74). -/
theorem armed_of_reloadOk_guard {arm : Count → State}
    (hout : out = if reloadOk dur s.params.ticksPerMs then .next (arm (reloadCount dur s.params.ticksPerMs))
      else .refused .reloadNotRepresentable)
    (hlow : 1 ≤ dur * s.params.ticksPerMs) (hhigh : dur * s.params.ticksPerMs ≤ 2 ^ 24) :
    ∃ n : Count, n.toNat = dur * s.params.ticksPerMs - 1 ∧ out = .next (arm n) := by
  have hok : reloadOk dur s.params.ticksPerMs = true := (reloadOk_iff _ _).mpr ⟨hlow, hhigh⟩
  exact ⟨_, reloadCount_toNat _ _ hok, hout.trans (if_pos hok)⟩

/-- An arming command with any other reload value is refused (rule R74, decision D21). -/
theorem refused_of_reloadOk_guard
    (hout : out = if reloadOk dur s.params.ticksPerMs then .next u else .refused .reloadNotRepresentable)
    (hrange : ¬(1 ≤ dur * s.params.ticksPerMs ∧ dur * s.params.ticksPerMs ≤ 2 ^ 24)) :
    out = .refused .reloadNotRepresentable :=
  hout.trans (if_neg (mt (reloadOk_iff _ _).mp hrange))

end

/-- Settles O29: the word is the one the encoder gives; the command is an arming one, with the control word 7. -/
theorem tinitArmsPeriodicTimer : Obligations.TinitArmsPeriodicTimer := by
  unfold Obligations.TinitArmsPeriodicTimer
  intro dur s
  exact ⟨fun hdur => decodeOfEncode (.tinit dur) (decide_eq_true hdur), armed_of_reloadOk_guard rfl,
    refused_of_reloadOk_guard rfl, rfl⟩

/-- Settles O33: the word is the one the encoder gives; the command is an arming one, with the control word 5. -/
theorem tbusywaitArmsAndCloses : Obligations.TbusywaitArmsAndCloses := by
  unfold Obligations.TbusywaitArmsAndCloses
  intro dur s
  exact ⟨fun hdur => decodeOfEncode (.tbusywait dur) (decide_eq_true hdur), armed_of_reloadOk_guard rfl,
    refused_of_reloadOk_guard rfl, rfl⟩

/-- A `TBUSYWAIT` that went through had a representable reload value and armed with it. -/
theorem exec_tbusywait_inversion {dur : Nat} {s t : State} (h : exec (.tbusywait dur) s = .next t) :
    ∃ n : Count, n.toNat + 1 = dur * s.params.ticksPerMs ∧ t = { s with
      tctrl := ⟨true, false, true, false⟩, tcurrent := 0, treload := n, bw := .polling } := by
  obtain ⟨-, harms, hrefuses, -⟩ := tbusywaitArmsAndCloses dur s
  by_cases hrange : 1 ≤ dur * s.params.ticksPerMs ∧ dur * s.params.ticksPerMs ≤ 2 ^ 24
  · obtain ⟨n, hn, e⟩ := harms hrange.1 hrange.2
    exact ⟨n, by omega, Host.Outcome.next.inj (h.symm.trans e)⟩
  · cases h.symm.trans (hrefuses hrange)

/-! ### The other commands -/

/-- `TSTART` sets `ENABLE`; its read half clears `COUNT` (rule R77). -/
theorem exec_tstart (s : State) :
    exec .tstart s = .next { s with tctrl := { s.tctrl with enable := true, count := false } } :=
  congrArg Host.Outcome.next (s.ctrlSetBit_enable true)

/-- `TSTOP` clears `ENABLE`; its read half clears `COUNT` (rule R78). -/
theorem exec_tstop (s : State) :
    exec .tstop s = .next { s with tctrl := { s.tctrl with enable := false, count := false } } :=
  congrArg Host.Outcome.next (s.ctrlSetBit_enable false)

/-- Settles O31: the word is the one the encoder gives; the command is the return to the power-on registers. -/
theorem tdeinitZeroesTimer : Obligations.TdeinitZeroesTimer := by
  unfold Obligations.TdeinitZeroesTimer
  exact ⟨decodeOfEncode .tdeinit rfl, rfl, fun s => congrArg Host.Outcome.next s.deinitTimer_eq⟩

/-- Settles O32: the words are those the encoder gives; each command is one read-modify-write of `ENABLE`. -/
theorem tstartTstopWriteEnableOnly : Obligations.TstartTstopWriteEnableOnly := by
  unfold Obligations.TstartTstopWriteEnableOnly
  exact ⟨decodeOfEncode .tstart rfl, decodeOfEncode .tstop rfl, fun s => ⟨exec_tstart s, exec_tstop s⟩⟩

/-- A count event does nothing while the timer is disabled (rule R95). -/
theorem State.tick_of_disabled {s : State} (h : s.tctrl.enable = false) : s.tick = s := if_pos h

/-- Settles O35: the stopped timer is a fixed point of the count event, so `TSTART` finds it as `TSTOP` left it. -/
theorem stopStartKeepsCount : Obligations.StopStartKeepsCount := by
  unfold Obligations.StopStartKeepsCount
  intro s k
  refine ⟨_, _, exec_tstop s, ?_, rfl⟩
  rw [Function.iterate_fixed (State.tick_of_disabled rfl) k]
  exact exec_tstart _

/-! ### The poll -/

/-- A poll that sees the flag clear changes nothing (rule R80). -/
theorem State.poll_of_flag_clear {s : State} (h : s.tctrl.count = false) : s.poll = s := by
  rw [s.poll_eq, if_neg (by simp [h])]

/-- A poll that sees the flag set deinitialises the timer and opens the port (rule R80). -/
theorem State.poll_of_flag_set {s : State} (h : s.tctrl.count = true) :
    s.poll = { s.deinitTimer with bw := .idle } := by
  rw [s.poll_eq, if_pos h]

/-- Settles O34: the step is a poll, on the state with the turn taken. -/
theorem pollEndsWaitWhenFlagSeen : Obligations.PollEndsWaitWhenFlagSeen := by
  unfold Obligations.PollEndsWaitWhenFlagSeen
  intro s hturn hbw
  have hpoll : step s = .next s.takeTurn.poll := (step_of_nextTurn hturn).trans (sequencerStep_of_polling hbw)
  exact ⟨fun hset => hpoll.trans (congrArg Host.Outcome.next (State.poll_of_flag_set (s := s.takeTurn) hset)),
    fun hclear => hpoll.trans (congrArg Host.Outcome.next (State.poll_of_flag_clear (s := s.takeTurn) hclear))⟩

/-! ### Runs -/

/-- A run goes on from the state an initial part of it answers. -/
theorem core_run_add {j : Nat} {s t : State} (h : core.run j s = .next t) (k : Nat) :
    core.run (j + k) s = core.run k t := by
  induction j generalizing s with
  | zero =>
    cases h
    rw [Nat.zero_add]
  | succ j ih =>
    cases hstep : step s with
    | next s' =>
      rw [core_run_of_step hstep] at h
      rw [Nat.succ_add, core_run_of_step hstep, ih h]
    | fault r => cases r
    | refused r =>
      have hrefused : core.run (j + 1) s = .refused r := by
        simp only [Host.Core.run, show core.step s = .refused r from hstep]
      cases h.symm.trans hrefused

/-- What holds at first and is kept by a step, which goes through, holds after any number of steps. -/
theorem core_run_of_kept {P : State → Prop} (hkept : ∀ s, P s → ∃ t, step s = .next t ∧ P t) (k : Nat) {s : State}
    (hs : P s) : ∃ t, core.run k s = .next t ∧ P t := by
  induction k generalizing s with
  | zero => exact ⟨s, rfl, hs⟩
  | succ k ih =>
    obtain ⟨s', hstep, hs'⟩ := hkept s hs
    rw [core_run_of_step hstep]
    exact ih hs'

/-- While a busy-wait is polling, a step takes its turn from the schedule and no word from the port (rule R14). -/
theorem inputs_of_step_of_polling {s t : State} (hbw : s.bw = .polling) (h : step s = .next t) :
    t.turns = s.turns.tail ∧ t.port = s.port := by
  obtain ⟨hturns, -, hport⟩ := stepConsumesInputsInOrder s t h
  exact ⟨hturns, hport.trans (if_neg (by simp [hbw]))⟩

/-- With a turn scheduled, that turn is next. -/
theorem State.nextTurn_of_turns {s : State} {u : Turn} {ts : List Turn} (h : s.turns = u :: ts) : s.nextTurn = u := by
  rw [State.nextTurn, h, List.headD_cons]

/-! ### A busy-wait that ends -/

/-- A count is zero exactly when its value is. -/
theorem count_eq_zero_iff (c : BitVec 24) : c = 0 ↔ c.toNat = 0 := by bv_omega

/-- A count is one exactly when its value is. -/
theorem count_eq_one_iff (c : BitVec 24) : c = 1 ↔ c.toNat = 1 := by bv_omega

/-- A count that is not zero can be decremented without wrapping. -/
theorem count_sub_one_toNat {c : BitVec 24} (h : c ≠ 0) : (c - 1).toNat = c.toNat - 1 := by bv_omega

/-- The count events an enabled timer with a reload value of at least 1 takes to its next expiry: a count at zero is
reloaded first (rule R95). -/
def State.ticksToExpiry (s : State) : Nat := if s.tcurrent = 0 then s.treload.toNat + 1 else s.tcurrent.toNat

/-- The busy-wait is polling and the flag it waits for comes with the `n`-th count event; 0 where it has come. -/
structure State.WaitsFor (s : State) (n : Nat) : Prop where
  polling : s.bw = .polling
  enabled : s.tctrl.enable = true
  reload : s.treload ≠ 0
  flag : s.tctrl.count = decide (n = 0)
  remaining : n ≠ 0 → s.ticksToExpiry = n

/-- An expiry is the last of the count events to it. -/
theorem State.ticksToExpiry_eq_one_iff {s : State} (hreload : s.treload ≠ 0) :
    s.ticksToExpiry = 1 ↔ s.tcurrent = 1 := by
  rw [ne_eq, count_eq_zero_iff] at hreload
  simp only [State.ticksToExpiry, count_eq_zero_iff, count_eq_one_iff]
  split <;> omega

/-- Any other count event brings the expiry one event nearer. -/
theorem State.ticksToExpiry_tick {s : State} (henable : s.tctrl.enable = true) (hreload : s.treload ≠ 0)
    (hcurrent : s.tcurrent ≠ 1) : s.tick.ticksToExpiry = s.ticksToExpiry - 1 := by
  rcases s.tick_cases with ⟨hdisabled, _⟩ | ⟨_, hzero, e⟩ | ⟨_, hone, _⟩ | ⟨_, hne, _, e⟩
  · simp [henable] at hdisabled
  · simp only [e, State.ticksToExpiry, if_pos hzero, if_neg hreload, Nat.add_sub_cancel]
  · exact absurd hone hcurrent
  · have hlast : s.tcurrent - 1 ≠ 0 := fun h => hcurrent (sub_eq_zero.mp h)
    rw [e]
    simp only [State.ticksToExpiry, if_neg hne, if_neg hlast, count_sub_one_toNat hne]

/-- A count event of an enabled timer sets the flag exactly at an expiry, and never clears it (rule R95). -/
theorem State.tick_count {s : State} (henable : s.tctrl.enable = true) :
    s.tick.tctrl.count = (s.tctrl.count || decide (s.tcurrent = 1)) := by
  rw [State.tick_eq]
  simp [henable]

namespace State.WaitsFor
variable {s : State} {n : Nat}

/-- A count event brings the flag one event nearer. -/
theorem tick (h : s.WaitsFor n) : s.tick.WaitsFor (n - 1) := by
  have hbw : s.tick.bw = s.bw := by rw [s.tick_eq]
  have henable : s.tick.tctrl.enable = s.tctrl.enable := by rw [s.tick_eq]
  have hreload : s.tick.treload = s.treload := by rw [s.tick_eq]
  have hone : n ≠ 0 → (n = 1 ↔ s.tcurrent = 1) := fun hn =>
    h.remaining hn ▸ State.ticksToExpiry_eq_one_iff h.reload
  refine ⟨hbw.trans h.polling, henable.trans h.enabled, hreload ▸ h.reload, ?_, fun hn => ?_⟩
  · rw [State.tick_count h.enabled, h.flag, ← Bool.decide_or, decide_eq_decide]
    by_cases hn : n = 0
    · simp [hn]
    · rw [← hone hn]
      omega
  · have hcurrent : s.tcurrent ≠ 1 := fun hc => hn (by have := (hone (by omega)).mpr hc; omega)
    rw [State.ticksToExpiry_tick h.enabled h.reload hcurrent, h.remaining (by omega)]

/-- A delivery turn does not touch the wait. -/
theorem deliver (h : s.WaitsFor n) : s.deliver.WaitsFor n := by
  rw [s.deliver_eq]
  exact ⟨h.polling, h.enabled, h.reload, h.flag, h.remaining⟩

/-- Taking a turn from the schedule does not touch the wait. -/
theorem takeTurn (h : s.WaitsFor n) : s.takeTurn.WaitsFor n :=
  ⟨h.polling, h.enabled, h.reload, h.flag, h.remaining⟩

/-- A step other than a reset or a poll that sees the flag goes on with the wait. -/
theorem step (h : s.WaitsFor n) (hreset : s.nextTurn ≠ .reset) (hpoll : s.nextTurn = .sequencer → n ≠ 0) :
    ∃ t, step s = .next t ∧ t.WaitsFor (n - if s.nextTurn = .tick then 1 else 0) := by
  rcases step_cases s with ⟨hturn, e⟩ | ⟨hturn, e⟩ | ⟨hturn, e⟩ | ⟨hturn, _⟩
  · have hclear : s.takeTurn.tctrl.count = false := h.flag.trans (decide_eq_false (hpoll hturn))
    rw [e, sequencerStep_of_polling h.takeTurn.polling, State.poll_of_flag_clear hclear, hturn]
    exact ⟨_, rfl, h.takeTurn⟩
  · rw [e, hturn]
    exact ⟨_, rfl, h.takeTurn.tick⟩
  · rw [e, hturn]
    exact ⟨_, rfl, h.takeTurn.deliver⟩
  · exact absurd hturn hreset

section
variable {us rest : List Turn} (h : s.WaitsFor n) (hturns : s.turns = us ++ rest) (hreset : .reset ∉ us)
  (hpoll : .sequencer ∈ us → us.count .tick < n)
include h hturns hreset hpoll

/-- A part of the schedule with no reset, and with polls only if the flag comes after it, goes on with the wait, nearer
to the flag by its count events. -/
theorem run : ∃ t, core.run us.length s = .next t ∧ t.WaitsFor (n - us.count .tick) ∧ t.turns = rest ∧
    t.port = s.port := by
  induction us generalizing s n with
  | nil => exact ⟨s, rfl, h, hturns, rfl⟩
  | cons u us ih =>
    have hnext : s.nextTurn = u := State.nextTurn_of_turns hturns
    obtain ⟨hu, hus⟩ : u ≠ .reset ∧ .reset ∉ us := by simpa [eq_comm] using hreset
    have hcount : (u :: us).count .tick = us.count .tick + if u = .tick then 1 else 0 := by
      simp [List.count_cons]
    obtain ⟨t, hstep, ht⟩ := h.step (hnext ▸ hu) fun hseq => by
      have := hpoll (by simp [← hnext, hseq])
      omega
    obtain ⟨htturns, htport⟩ := inputs_of_step_of_polling h.polling hstep
    rw [hnext] at ht
    rw [hcount] at hpoll ⊢
    obtain ⟨v, hrun, hv, hvturns, hvport⟩ := ih ht (by rw [htturns, hturns]; rfl) hus fun hseq => by
      have := hpoll (List.mem_cons_of_mem u hseq)
      omega
    rw [Nat.add_comm, ← Nat.sub_sub]
    exact ⟨v, (core_run_of_step hstep _).trans hrun, hv, hvturns, hvport.trans htport⟩

/-- Throughout such a part of the schedule the wait is polling and has taken no command. -/
theorem run_take {k : Nat} (hk : k ≤ us.length) :
    ∃ t, core.run k s = .next t ∧ t.bw = .polling ∧ t.port = s.port := by
  have hsplit : s.turns = us.take k ++ (us.drop k ++ rest) := by
    rw [hturns, ← List.append_assoc, List.take_append_drop]
  obtain ⟨t, hrun, ht, -, hport⟩ := h.run hsplit (mt List.mem_of_mem_take hreset) fun hseq =>
    ((List.take_sublist k us).count_le .tick).trans_lt (hpoll (List.mem_of_mem_take hseq))
  rw [List.length_take_of_le hk] at hrun
  exact ⟨t, hrun, ht.polling, hport⟩

end
end State.WaitsFor

/-- An armed busy-wait with a reload value of at least 1 sees its flag at the `(reload + 1)`-th count event. -/
theorem waitsFor_of_exec_tbusywait {dur : Nat} {s₀ s : State} (h : exec (.tbusywait dur) s₀ = .next s)
    (hreload : 2 ≤ dur * s₀.params.ticksPerMs) : s.WaitsFor (dur * s₀.params.ticksPerMs) := by
  obtain ⟨n, hn, rfl⟩ := exec_tbusywait_inversion h
  exact ⟨rfl, rfl, (count_eq_zero_iff n).not.mpr (by omega), (decide_eq_false (by omega)).symm, fun _ => hn⟩

/-- Settles O36: before the last count event polls see the flag clear, between that event and the next poll there is
none, and that poll sees the flag set. -/
theorem busyWaitEndsAfterItsTicks : Obligations.BusyWaitEndsAfterItsTicks := by
  unfold Obligations.BusyWaitEndsAfterItsTicks
  intro s₀ s dur pre post rest harm hreload hturns hpre hticks hpost hnopoll
  have harmed : s.WaitsFor (pre.count .tick + 1) := hticks ▸ waitsFor_of_exec_tbusywait harm hreload
  obtain ⟨hinputs, -, hport⟩ := exec_inputs harm
  have hsplit : s.turns = pre ++ (.tick :: post ++ .sequencer :: rest) := hinputs.trans hturns
  obtain ⟨t, hrun, ht, htturns, htport⟩ := harmed.run hsplit hpre fun _ => Nat.lt_succ_self _
  have hpost' : .reset ∉ Turn.tick :: post := by simpa using hpost
  have hnopoll' : .sequencer ∉ Turn.tick :: post := by simpa using hnopoll
  refine ⟨fun k hk => ?_, ?_⟩
  · rcases Nat.le_total k pre.length with hle | hle
    · rw [← hport]
      exact harmed.run_take hsplit hpre (fun _ => Nat.lt_succ_self _) hle
    · obtain ⟨j, rfl⟩ := Nat.exists_eq_add_of_le hle
      rw [core_run_add hrun, ← hport, ← htport]
      exact ht.run_take htturns hpost' (absurd · hnopoll') (by rw [List.length_cons]; omega)
  · obtain ⟨v, hrun', hv, hvturns, hvport⟩ := ht.run htturns hpost' (absurd · hnopoll')
    have hflag : v.tctrl.count = true := hv.flag.trans (decide_eq_true (by simp))
    have hturn : v.nextTurn = .sequencer := State.nextTurn_of_turns hvturns
    have hlast := (pollEndsWaitWhenFlagSeen v hturn hv.polling).1 hflag
    have hlength : pre.length + 1 + post.length + 1 = pre.length + ((Turn.tick :: post).length + 1) := by
      rw [List.length_cons]
      omega
    rw [hlength, core_run_add hrun, core_run_add hrun', core_run_of_step hlast]
    exact ⟨_, rfl, rfl, rfl, rfl, rfl, (hvport.trans htport).trans hport, congrArg List.tail hvturns⟩

/-! ### A busy-wait that hangs -/

/-- The busy-wait is polling and no turn to come can end it: the flag is clear, no reset is scheduled, and no count
event either, or the timer is held at zero by a reload value of 0 (rule R81). -/
structure State.Hangs (s : State) : Prop where
  polling : s.bw = .polling
  flag : s.tctrl.count = false
  noReset : .reset ∉ s.turns
  neverExpires : .tick ∉ s.turns ∨ (s.treload = 0 ∧ s.tcurrent = 0)

/-- A turn that is not the sequencer's is one of the schedule's. -/
theorem State.nextTurn_mem {s : State} {u : Turn} (h : s.nextTurn = u) (hu : u ≠ .sequencer) : u ∈ s.turns := by
  unfold State.nextTurn at h
  cases hturns : s.turns with
  | nil => simp_all
  | cons v vs => simp_all

/-- A count event at zero with a reload value of 0 does nothing (rule R95). -/
theorem State.tick_of_zero {s : State} (hreload : s.treload = 0) (hcurrent : s.tcurrent = 0) : s.tick = s := by
  rcases s.tick_cases with ⟨_, e⟩ | ⟨_, _, e⟩ | ⟨_, hone, _⟩ | ⟨_, hne, _⟩
  · exact e
  · exact e.trans (congrArg (fun c => { s with tcurrent := c }) (hreload.trans hcurrent.symm))
  · simp [hcurrent] at hone
  · exact absurd hcurrent hne

namespace State.Hangs
variable {s : State}

/-- Taking a turn from the schedule leaves the wait hanging. -/
theorem takeTurn (h : s.Hangs) : s.takeTurn.Hangs :=
  ⟨h.polling, h.flag, mt List.mem_of_mem_tail h.noReset, h.neverExpires.imp_left (mt List.mem_of_mem_tail)⟩

/-- A delivery turn leaves the wait hanging. -/
theorem deliver (h : s.Hangs) : s.deliver.Hangs := by
  rw [s.deliver_eq]
  exact ⟨h.polling, h.flag, h.noReset, h.neverExpires⟩

/-- Every step goes through, leaves the wait hanging and takes no command. -/
theorem step (h : s.Hangs) : ∃ t, step s = .next t ∧ t.Hangs ∧ t.port = s.port := by
  suffices ∃ t, Machine.step s = .next t ∧ t.Hangs by
    obtain ⟨t, hstep, ht⟩ := this
    exact ⟨t, hstep, ht, (inputs_of_step_of_polling h.polling hstep).2⟩
  rcases step_cases s with ⟨_, e⟩ | ⟨hturn, e⟩ | ⟨_, e⟩ | ⟨hturn, _⟩
  · rw [e, sequencerStep_of_polling h.takeTurn.polling, State.poll_of_flag_clear h.takeTurn.flag]
    exact ⟨_, rfl, h.takeTurn⟩
  · obtain ⟨hreload, hcurrent⟩ : s.treload = 0 ∧ s.tcurrent = 0 :=
      h.neverExpires.resolve_left (not_not_intro (State.nextTurn_mem hturn (by decide)))
    rw [e, State.tick_of_zero (s := s.takeTurn) hreload hcurrent]
    exact ⟨_, rfl, h.takeTurn⟩
  · exact ⟨_, e, h.takeTurn.deliver⟩
  · exact absurd (State.nextTurn_mem hturn (by decide)) h.noReset

end State.Hangs

/-- An armed busy-wait with no reset scheduled, and no count event either or a reload value of 0, hangs. -/
theorem hangs_of_exec_tbusywait {dur : Nat} {s₀ s : State} (h : exec (.tbusywait dur) s₀ = .next s)
    (hreset : .reset ∉ s₀.turns) (hcause : .tick ∉ s₀.turns ∨ dur * s₀.params.ticksPerMs = 1) : s.Hangs := by
  obtain ⟨n, hn, rfl⟩ := exec_tbusywait_inversion h
  exact ⟨rfl, rfl, hreset, hcause.imp_right fun hone => ⟨(count_eq_zero_iff n).mpr (by omega), rfl⟩⟩

/-- Settles O37: an armed busy-wait under either condition hangs, which every step keeps. -/
theorem busyWaitCanHang : Obligations.BusyWaitCanHang := by
  unfold Obligations.BusyWaitCanHang
  intro s₀ s dur harm hreset hcause k
  obtain ⟨-, -, hport⟩ := exec_inputs harm
  have hkept : ∀ t : State, t.Hangs ∧ t.port = s₀.port → ∃ u, step t = .next u ∧ u.Hangs ∧ u.port = s₀.port := by
    rintro t ⟨ht, htport⟩
    obtain ⟨u, hstep, hu, huport⟩ := ht.step
    exact ⟨u, hstep, hu, huport.trans htport⟩
  obtain ⟨t, hrun, ht, htport⟩ := core_run_of_kept hkept k ⟨hangs_of_exec_tbusywait harm hreset hcause, hport⟩
  exact ⟨t, hrun, ht.polling, htport⟩

end Sys2Proof.Machine
end

section
/-! PROOFS. Callback commands (45_callback.md): the registration (rule R83) and the dispatch (rule R84). -/

namespace Sys2Proof.Machine

/-- Settles O38: the word is the one the encoder gives; the command writes the slot and nothing else. -/
theorem setcbReplacesCallback : Obligations.SetcbReplacesCallback := by
  unfold Obligations.SetcbReplacesCallback
  exact fun ref s => ⟨decodeOfEncode (.setcb ref) rfl, exec_setcb ref s⟩

/-- `DISPATCH` is the dispatch entry point, performed from the command port (rule R84, decision D27). -/
theorem exec_dispatch (s : State) : exec .dispatch s = .next s.invokeCallback := rfl

/-- Settles O39: the word is the one the encoder gives; the entry point emits the invocation of a registered callback
and does nothing with an empty slot. -/
theorem dispatchInvokesCallbackOnce : Obligations.DispatchInvokesCallbackOnce := by
  unfold Obligations.DispatchInvokesCallbackOnce
  refine ⟨decodeOfEncode .dispatch rfl, fun s => ?_⟩
  rw [exec_dispatch]
  rcases s.invokeCallback_cases with ⟨hempty, e⟩ | ⟨hregistered, e⟩
  · exact ⟨absurd hempty, fun _ => congrArg _ e⟩
  · exact ⟨fun _ => congrArg _ e, (absurd · hregistered)⟩

end Sys2Proof.Machine
end

section
/-! PROOFS. Mask commands (46_cpu_mask.md): the global interrupt enable (rules R85, R86) and the global fault enable
(rules R87, R88). -/

namespace Sys2Proof.Machine

/-- `ENXCPT` sets the global interrupt enable (rule R85). -/
theorem exec_enxcpt (s : State) : exec .enxcpt s = .next { s with gie := true } := rfl

/-- `DISXCPT` clears the global interrupt enable (rule R86). -/
theorem exec_disxcpt (s : State) : exec .disxcpt s = .next { s with gie := false } := rfl

/-- `ENFAULT` sets the global fault enable (rule R87). -/
theorem exec_enfault (s : State) : exec .enfault s = .next { s with gfe := true } := rfl

/-- `DISFAULT` clears the global fault enable (rule R88). -/
theorem exec_disfault (s : State) : exec .disfault s = .next { s with gfe := false } := rfl

/-- Settles O40: the words are the ones the encoder gives; each command writes its mask bit and nothing else. -/
theorem maskCommandsWriteOneBit : Obligations.MaskCommandsWriteOneBit := by
  unfold Obligations.MaskCommandsWriteOneBit
  exact ⟨decodeOfEncode .enxcpt rfl, decodeOfEncode .disxcpt rfl, decodeOfEncode .enfault rfl,
    decodeOfEncode .disfault rfl,
    fun s => ⟨exec_enxcpt s, exec_disxcpt s, exec_enfault s, exec_disfault s⟩⟩

end Sys2Proof.Machine
end

section
/-! PROOFS. Register read (47_register_read.md rule R89). -/

namespace Sys2Proof.Machine

/-- `RDREG` performs the read by selector and then emits the word read (rule R89). -/
theorem exec_rdreg (sel : Nat) (s : State) :
    exec (.rdreg sel) s = .next ((s.afterRead sel).emit (.resp (s.regWord sel))) := rfl

/-- Settles O41: the word is the one the encoder gives; the response is emitted in the state after the read, which
differs from the state before at selector 0x50 only. -/
theorem rdregRespondsAndClearsCount : Obligations.RdregRespondsAndClearsCount := by
  unfold Obligations.RdregRespondsAndClearsCount
  intro sel s
  refine ⟨fun hsel => decodeOfEncode (.rdreg sel) (decide_eq_true (by omega)), ?_⟩
  rw [exec_rdreg]
  rcases s.afterRead_cases sel with ⟨hsel, e⟩ | ⟨hsel, e⟩ <;> rw [e]
  · exact ⟨absurd hsel, fun _ => rfl⟩
  · exact ⟨fun _ => rfl, (absurd · hsel)⟩

end Sys2Proof.Machine
end

section
/-! PROOFS. Exceptions (60_exceptions.md): the count event and its period (rules R95, R96), delivery (rules R97, R99),
and the timer's path from count to callback (rules R94, R98). -/

namespace Sys2Proof.Machine

/-! ### The count event -/

/-- The state that count events of an enabled timer lead to from `s`: the count is `c`, and if one of them was an expiry
the flag is set and, with `INTEN`, the exception pending. -/
def State.counted (s : State) (c : Count) (expired : Bool) : State :=
  { s with
    tcurrent := c
    tctrl := { s.tctrl with count := s.tctrl.count || expired }
    stPend := s.stPend || (s.tctrl.inten && expired) }

/-- Without an expiry only the count changes. -/
theorem State.counted_false (s : State) (c : Count) : s.counted c false = { s with tcurrent := c } := by
  simp only [State.counted, Bool.or_false, Bool.and_false]

/-- An expiry sets the flag and, with `INTEN`, the pending bit. -/
theorem State.counted_true (s : State) (c : Count) :
    s.counted c true = { s with
      tcurrent := c
      tctrl := { s.tctrl with count := true }
      stPend := if s.tctrl.inten then true else s.stPend } := by
  cases hinten : s.tctrl.inten <;> simp [State.counted, hinten]

/-- Count events after count events are count events. -/
theorem State.counted_counted (s : State) (c c' : Count) (expired expired' : Bool) :
    (s.counted c expired).counted c' expired' = s.counted c' (expired || expired') := by
  simp only [State.counted, Bool.and_or_distrib_left, Bool.or_assoc]

/-- A count event of an enabled timer: a reload at zero, else one less; an expiry exactly from 1 (rule R95). -/
theorem State.tick_of_enabled {s : State} (henable : s.tctrl.enable = true) :
    s.tick = s.counted (if s.tcurrent = 0 then s.treload else s.tcurrent - 1) (decide (s.tcurrent = 1)) := by
  rcases s.tick_cases with ⟨hdisabled, _⟩ | ⟨_, h0, e⟩ | ⟨_, h1, e⟩ | ⟨_, h0, h1, e⟩
  · simp [henable] at hdisabled
  · rw [e, h0, if_pos rfl]
    exact (s.counted_false s.treload).symm
  · rw [e, h1]
    simp [State.counted]
  · rw [e, if_neg h0, decide_eq_false h1, State.counted_false]

/-- Settles O44: a disabled timer stays, and an enabled one counts as its count says. -/
theorem tickCountsFlagsPends : Obligations.TickCountsFlagsPends := by
  unfold Obligations.TickCountsFlagsPends
  intro s
  refine ⟨State.tick_of_disabled, fun he hzero => ?_, fun he hone => ?_, fun he htwo => ?_⟩
  · rw [State.tick_of_enabled he, hzero, if_pos rfl]
    exact s.counted_false s.treload
  · rw [State.tick_of_enabled he, hone]
    exact s.counted_true 0
  · have h0 : s.tcurrent ≠ 0 := (count_eq_zero_iff _).not.mpr (by omega)
    have h1 : s.tcurrent ≠ 1 := (count_eq_one_iff _).not.mpr (by omega)
    refine ⟨s.tcurrent - 1, count_sub_one_toNat h0, ?_⟩
    rw [State.tick_of_enabled he, if_neg h0, decide_eq_false h1, State.counted_false]

/-! ### The period -/

/-- One more count event of an enabled timer. -/
theorem State.tick_counted {s : State} (henable : s.tctrl.enable = true) (c : Count) (expired : Bool) :
    (s.counted c expired).tick = s.counted (if c = 0 then s.treload else c - 1) (expired || decide (c = 1)) :=
  (State.tick_of_enabled (s := s.counted c expired) henable).trans (s.counted_counted c _ expired _)

/-- The count after one more count event, as a number. -/
theorem nextCount_toNat (c reload : BitVec 24) :
    (if c = 0 then reload else c - 1).toNat = if c.toNat = 0 then reload.toNat else c.toNat - 1 := by
  simp only [← count_eq_zero_iff]
  split
  · rfl
  · next hne => exact count_sub_one_toNat hne

/-- `c` is a possible count `k` events after zero, with the reload value `n`: `c` is at most `n`, and `c` more events
end a period of `n + 1` events (rule R96). -/
def IsPeriodicCount (n k c : Nat) : Prop := c ≤ n ∧ n + 1 ∣ c + k

section
variable {n k c : Nat} (h : IsPeriodicCount n k c)
include h

/-- The periodic count as the sequence of rule R96. -/
theorem IsPeriodicCount.eq : c = if k % (n + 1) = 0 then 0 else n + 1 - k % (n + 1) := by
  obtain ⟨hle, hdvd⟩ := h
  have hlt : k % (n + 1) < n + 1 := Nat.mod_lt _ (Nat.succ_pos n)
  have hphase : n + 1 ∣ c + k % (n + 1) := by
    rw [Nat.dvd_iff_mod_eq_zero, Nat.add_mod_mod]
    exact Nat.mod_eq_zero_of_dvd hdvd
  by_cases hzero : c + k % (n + 1) = 0
  · rw [if_pos (by omega)]
    omega
  · have hperiod : c + k % (n + 1) = n + 1 := Nat.eq_of_dvd_of_lt_two_mul hzero hphase (by omega)
    rw [if_neg (by omega)]
    omega

/-- The next count: a reload at zero, else one less. -/
theorem IsPeriodicCount.succ : IsPeriodicCount n (k + 1) (if c = 0 then n else c - 1) := by
  obtain ⟨hle, hdvd⟩ := h
  split
  · next hzero =>
    refine ⟨Nat.le_refl n, ?_⟩
    rw [show n + (k + 1) = c + k + (n + 1) by omega]
    exact Nat.dvd_add_self_right.mpr hdvd
  · next hpos =>
    refine ⟨by omega, ?_⟩
    rwa [show c - 1 + (k + 1) = c + k by omega]

/-- The expiries are the events at a count of 1, and the first of them is the `(n + 1)`-th event. -/
theorem IsPeriodicCount.expired_iff (hn : 1 ≤ n) : n + 1 ≤ k + 1 ↔ n + 1 ≤ k ∨ c = 1 := by
  obtain ⟨hle, hdvd⟩ := h
  constructor
  · intro hk
    refine (Nat.lt_or_eq_of_le hk).imp (fun hlt => by omega) fun hfirst => ?_
    have hperiod : c + k = n + 1 := Nat.eq_of_dvd_of_lt_two_mul (by omega) hdvd (by omega)
    omega
  · rintro (hk | rfl)
    · omega
    · have := Nat.le_of_dvd (by omega) hdvd
      omega

end

section
variable {s : State} (henable : s.tctrl.enable = true)
include henable

/-- From zero, with a reload value of at least 1, the count goes through its periods, and there has been an expiry from
the event on that ends the first of them. -/
theorem State.iterate_tick_of_zero (hcurrent : s.tcurrent = 0) (hreload : 1 ≤ s.treload.toNat) (k : Nat) :
    ∃ c : Count, IsPeriodicCount s.treload.toNat k c.toNat ∧
      State.tick^[k] s = s.counted c (decide (s.treload.toNat + 1 ≤ k)) := by
  induction k with
  | zero =>
    refine ⟨s.tcurrent, ?_, (s.counted_false s.tcurrent).symm⟩
    rw [hcurrent]
    exact ⟨Nat.zero_le _, Nat.dvd_zero _⟩
  | succ k ih =>
    obtain ⟨c, hc, hcounted⟩ := ih
    have hexpired := hc.expired_iff hreload
    rw [← count_eq_one_iff] at hexpired
    refine ⟨if c = 0 then s.treload else c - 1, ?_, ?_⟩
    · rw [nextCount_toNat]
      exact hc.succ
    · rw [Function.iterate_succ_apply', hcounted, State.tick_counted henable, ← Bool.decide_or,
        decide_eq_decide.mpr hexpired]

/-- As long as it does not reach zero, the count goes down by one with each event, and nothing expires. -/
theorem State.iterate_tick_of_lt {k : Nat} (hk : k < s.tcurrent.toNat) :
    ∃ c : Count, c.toNat = s.tcurrent.toNat - k ∧ State.tick^[k] s = s.counted c false := by
  induction k with
  | zero => exact ⟨s.tcurrent, rfl, (s.counted_false s.tcurrent).symm⟩
  | succ k ih =>
    obtain ⟨c, hc, hcounted⟩ := ih (Nat.lt_of_succ_lt hk)
    have hne : c ≠ 0 := (count_eq_zero_iff c).not.mpr (by omega)
    have hne1 : c ≠ 1 := (count_eq_one_iff c).not.mpr (by omega)
    refine ⟨c - 1, by rw [count_sub_one_toNat hne]; omega, ?_⟩
    rw [Function.iterate_succ_apply', hcounted, State.tick_counted henable, if_neg hne, decide_eq_false hne1,
      Bool.or_false]

/-- From a count of at least 1, that many events lead to the next expiry, at count zero. -/
theorem State.iterate_tick_to_expiry {k : Nat} (hpos : 1 ≤ k) (hk : k = s.tcurrent.toNat) :
    State.tick^[k] s = s.counted 0 true := by
  obtain ⟨j, rfl⟩ := Nat.exists_eq_add_of_le' hpos
  obtain ⟨c, hc, hcounted⟩ := State.iterate_tick_of_lt henable (k := j) (by omega)
  obtain rfl : c = 1 := (count_eq_one_iff c).mpr (by omega)
  rw [Function.iterate_succ_apply', hcounted, State.tick_counted henable]
  rfl

end

/-- Settles O45: from zero the count is periodic, a reload value of 0 holds it there, and from elsewhere it goes down to
the expiry. -/
theorem timerPeriodIsReloadPlusOne : Obligations.TimerPeriodIsReloadPlusOne := by
  unfold Obligations.TimerPeriodIsReloadPlusOne
  intro s k henable
  refine ⟨fun hcurrent hreload => ?_, fun hcurrent hreload => ?_, fun hk => ?_, fun hpos hk => ?_⟩
  · obtain ⟨c, hc, hcounted⟩ := State.iterate_tick_of_zero henable hcurrent hreload k
    rw [hcounted]
    exact ⟨hc.eq, rfl, rfl, rfl⟩
  · exact Function.iterate_fixed (State.tick_of_zero hreload hcurrent) k
  · obtain ⟨c, hc, hcounted⟩ := State.iterate_tick_of_lt henable hk
    rw [hcounted, State.counted_false]
    exact ⟨hc, rfl, rfl⟩
  · rw [State.iterate_tick_to_expiry henable hpos hk, State.counted_true]
    exact ⟨rfl, rfl⟩

/-! ### Delivery -/

/-- A turn of `DELIVER` that is not enabled does nothing (rule R97, log entry 2). -/
theorem State.deliver_of_disabled {s : State} (h : s.stPend = false ∨ s.gie = false) : s.deliver = s := by
  rcases s.deliver_cases with ⟨_, e⟩ | ⟨hp, hg, _⟩ | ⟨hp, hg, _⟩
  · exact e
  · simp [hp, hg] at h
  · simp [hp, hg] at h

/-- Settles O46, by the three things a turn of `DELIVER` can do. -/
theorem deliverTakesTimerException : Obligations.DeliverTakesTimerException := by
  unfold Obligations.DeliverTakesTimerException
  intro s
  refine ⟨State.deliver_of_registered, fun hp hg hempty => ?_, State.deliver_of_disabled⟩
  rcases s.deliver_cases with ⟨hn, _⟩ | ⟨_, _, _, e⟩ | ⟨_, _, hregistered, _⟩
  · exact absurd ⟨hp, hg⟩ hn
  · exact e
  · exact absurd hempty hregistered

/-! ### The timer's path as a machine of its own

The turns and the commands as they act on the path alone. Each is tied to the model's by a commuting lemma: the path of
the state after an operation is the operation on the path of the state before. -/

/-- The dispatch entry point on the path (rule R84). -/
def TimerPath.invokeCallback (p : TimerPath) : TimerPath :=
  if p.callback = 0 then p else { p with invocations := p.invocations ++ [.invoke p.callback] }

/-- A count event on the path (rule R95). -/
def TimerPath.tick (p : TimerPath) : TimerPath :=
  if p.tctrl.enable = false then p
  else if p.tcurrent = 0 then { p with tcurrent := p.treload }
  else if p.tcurrent - 1 = 0 then
    { p with
      tcurrent := p.tcurrent - 1, tctrl := { p.tctrl with count := true }, stPend := p.stPend || p.tctrl.inten }
  else { p with tcurrent := p.tcurrent - 1 }

/-- A turn of `DELIVER` on the path (rule R97). -/
def TimerPath.deliver (p : TimerPath) : TimerPath :=
  if p.stPend && p.gie then { p with stPend := false }.invokeCallback else p

/-- The timer's return to its power-on state on the path (rule R76). -/
def TimerPath.deinitTimer (p : TimerPath) : TimerPath :=
  { p with tctrl := ⟨false, false, false, false⟩, treload := 0, tcurrent := 0 }

/-- A poll on the path (rule R80). -/
def TimerPath.poll (p : TimerPath) : TimerPath :=
  if p.tctrl.count = true then { p.deinitTimer with bw := .idle } else p

/-- A reset on the path (rule R107). -/
def TimerPath.resetEvent (p : TimerPath) : TimerPath :=
  { p.deinitTimer with callback := 0, gie := p.resetGie, stPend := false, bw := .idle }

/-- A command on the path: the timer, callback and `GIE` commands act on it, of the reads only that of `TCTRL`, of the
exception enables only that of kind 9, and a refused priority is refused whatever the path (rule R70). -/
def TimerPath.exec (i : Instr) (p : TimerPath) : Host.Outcome TimerPath Fault Refusal :=
  match i with
  | .tinit dur =>
    if reloadOk dur p.ticksPerMs then .next { p with
      tctrl := ⟨true, true, true, false⟩, treload := reloadCount dur p.ticksPerMs, tcurrent := 0, gie := true }
    else .refused .reloadNotRepresentable
  | .tbusywait dur =>
    if reloadOk dur p.ticksPerMs then .next { p with
      tctrl := ⟨true, false, true, false⟩, treload := reloadCount dur p.ticksPerMs, tcurrent := 0, bw := .polling }
    else .refused .reloadNotRepresentable
  | .tdeinit => .next p.deinitTimer
  | .tstart => .next { p with tctrl := { p.tctrl with enable := true, count := false } }
  | .tstop => .next { p with tctrl := { p.tctrl with enable := false, count := false } }
  | .setcb ref => .next { p with callback := ref }
  | .dispatch => .next p.invokeCallback
  | .enxcpt => .next { p with gie := true }
  | .disxcpt => .next { p with gie := false }
  | .enexc kind => .next
      { p with tctrl := if kind = 9 then { p.tctrl with inten := true, count := false } else p.tctrl }
  | .disexc kind => .next
      { p with tctrl := if kind = 9 then { p.tctrl with inten := false, count := false } else p.tctrl }
  | .rdreg sel => .next { p with tctrl := if sel = 0x50 then { p.tctrl with count := false } else p.tctrl }
  | .setexcpri kind pri => if 3 ≤ kind ∧ kind ≤ 9 ∧ 7 < pri then .refused .priorityAboveSeven else .next p
  | .enirq _ | .disirq _ | .setirqpri _ _ | .getirqpri _ | .getexcpri _ | .enfault | .disfault => .next p

/-- A turn of the command sequencer on the path (rules R14, R80). -/
def TimerPath.sequencerStep (p : TimerPath) : Host.Outcome TimerPath Fault Refusal :=
  match p.bw, p.port with
  | .polling, _ => .next p.poll
  | .idle, [] => .next p
  | .idle, w :: rest =>
    match decode w with
    | .ok i => TimerPath.exec i { p with port := rest }
    | .error _ => .next { p with port := rest }

/-- A step on the path: the agent of the next turn steps, on the path with that turn taken (rule R12). -/
def TimerPath.step (p : TimerPath) : Host.Outcome TimerPath Fault Refusal :=
  match p.turns.headD .sequencer with
  | .sequencer => { p with turns := p.turns.tail }.sequencerStep
  | .tick => .next { p with turns := p.turns.tail }.tick
  | .deliver => .next { p with turns := p.turns.tail }.deliver
  | .reset => .next { p with turns := p.turns.tail }.resetEvent

/-- What an outcome says of the path: the path of the next state, or the same stop. -/
def timerPathOutcome (o : Host.Outcome State Fault Refusal) : Host.Outcome TimerPath Fault Refusal :=
  match o with
  | .next t => .next t.timerPath
  | .fault r => .fault r
  | .refused r => .refused r

/-! ### The operations commute with taking the path -/

section
variable (s : State)

/-- A response is not on the path. -/
theorem State.timerPath_emit_resp (v : Word) : (s.emit (.resp v)).timerPath = s.timerPath := by
  simp [State.timerPath, State.emit, Event.isInvoke]

/-- An invocation is on the path. -/
theorem State.timerPath_emit_invoke (ref : Word) :
    (s.emit (.invoke ref)).timerPath =
      { s.timerPath with invocations := s.timerPath.invocations ++ [.invoke ref] } := by
  simp [State.timerPath, State.emit, Event.isInvoke]

theorem State.timerPath_invokeCallback : s.invokeCallback.timerPath = s.timerPath.invokeCallback := by
  rcases s.invokeCallback_cases with ⟨hc, e⟩ | ⟨hc, e⟩ <;> rw [e]
  · exact (if_pos hc).symm
  · rw [State.timerPath_emit_invoke]
    exact (if_neg hc).symm

theorem State.timerPath_tick : s.tick.timerPath = s.timerPath.tick := by
  simp only [State.tick, apply_ite State.timerPath]
  rfl

theorem State.timerPath_deliver : s.deliver.timerPath = s.timerPath.deliver := by
  rw [State.deliver, apply_ite State.timerPath, State.takeTimerException, State.timerPath_invokeCallback]
  rfl

theorem State.timerPath_poll : s.poll.timerPath = s.timerPath.poll := by
  rw [State.poll_eq, apply_ite State.timerPath]
  rfl

theorem State.timerPath_resetEvent : s.resetEvent.timerPath = s.timerPath.resetEvent := rfl

/-- The enables of the IRQ lines are not on the path (rule R94). -/
theorem State.timerPath_setIrqEnable (id : Nat) (b : Bool) : (s.setIrqEnable id b).timerPath = s.timerPath :=
  congrArg State.timerPath (a₁ := { s.setIrqEnable id b with en := s.en }) (s.setIrqEnable_frame id b)

/-- A command that goes through leaves the path as what it may write says. -/
theorem timerPathOutcome_of_next {i : Instr} {s t : State} (h : exec i s = .next t) :
    timerPathOutcome (exec i s) = .next (commandResult i s t).timerPath := by
  rw [← exec_eq_commandResult h, h]
  rfl

/-- A command that only responds leaves the path alone. -/
theorem timerPathOutcome_of_response {i : Instr} {s : State} {v : Word}
    (h : exec i s = .next (s.emit (.resp v))) : timerPathOutcome (exec i s) = .next s.timerPath := by
  rw [h]
  exact congrArg _ (s.timerPath_emit_resp v)

/-- A command acts on the path as its counterpart there. -/
theorem timerPathOutcome_exec (i : Instr) : timerPathOutcome (exec i s) = TimerPath.exec i s.timerPath := by
  cases i with
  | enirq id => exact congrArg _ (s.timerPath_setIrqEnable id true)
  | disirq id => exact congrArg _ (s.timerPath_setIrqEnable id false)
  | setirqpri id pri =>
    obtain ⟨t, hnext⟩ : ∃ t, exec (.setirqpri id pri) s = .next t := execSetirqpri_next id pri s
    exact timerPathOutcome_of_next (t := t) hnext
  | getirqpri id =>
    obtain ⟨t, hnext⟩ : ∃ t, exec (.getirqpri id) s = .next t := execGetirqpri_next id s
    obtain ⟨v, e⟩ := exec_effect hnext
    exact timerPathOutcome_of_response (hnext.trans (congrArg _ e))
  | getexcpri kind =>
    obtain ⟨t, hnext⟩ : ∃ t, exec (.getexcpri kind) s = .next t := execGetexcpri_next kind s
    obtain ⟨v, e⟩ := exec_effect hnext
    exact timerPathOutcome_of_response (hnext.trans (congrArg _ e))
  | setexcpri kind pri =>
    have hout := execSetexcpri_outcome kind pri s
    split at hout
    · next hrefused => exact (congrArg timerPathOutcome hout).trans (if_pos hrefused).symm
    · next hgoes =>
      obtain ⟨t, hnext⟩ : ∃ t, exec (.setexcpri kind pri) s = .next t := hout
      exact (timerPathOutcome_of_next hnext).trans (if_neg hgoes).symm
  | enexc kind => exact timerPathOutcome_of_next (exec_enexc kind s)
  | disexc kind => exact timerPathOutcome_of_next (exec_disexc kind s)
  | rdreg sel =>
    rw [exec_rdreg, timerPathOutcome, State.timerPath_emit_resp, TimerPath.exec]
    rcases s.afterRead_cases sel with ⟨hsel, e⟩ | ⟨hsel, e⟩ <;> rw [e]
    · rw [if_pos hsel]
      rfl
    · rw [if_neg hsel]
  | tinit dur => exact apply_ite timerPathOutcome _ _ _
  | tbusywait dur => exact apply_ite timerPathOutcome _ _ _
  | tstart => rw [exec_tstart]; rfl
  | tstop => rw [exec_tstop]; rfl
  | dispatch => exact congrArg _ s.timerPath_invokeCallback
  | tdeinit | setcb | enxcpt | disxcpt | enfault | disfault => rfl

/-- A turn of the sequencer acts on the path as its counterpart there. -/
theorem timerPathOutcome_sequencerStep : timerPathOutcome (sequencerStep s) = s.timerPath.sequencerStep := by
  have hbw : s.timerPath.bw = s.bw := rfl
  have hport : s.timerPath.port = s.port := rfl
  unfold TimerPath.sequencerStep
  rcases sequencerStep_cases s with
      ⟨hphase, e⟩ | ⟨hphase, hwords, e⟩ | ⟨w, rest, _, hphase, hwords, hdec, e⟩ |
      ⟨w, rest, i, hphase, hwords, hdec, e⟩ <;>
    rw [e]
  · simp only [hbw, hphase]
    exact congrArg _ s.timerPath_poll
  · simp only [hbw, hport, hphase, hwords]
    rfl
  · simp only [hbw, hport, hphase, hwords, hdec]
    rfl
  · simp only [hbw, hport, hphase, hwords, hdec]
    exact timerPathOutcome_exec { s with bw := .idle, port := rest } i

/-- A step acts on the path as the step of the path: nothing off the path takes part. -/
theorem timerPathOutcome_step : timerPathOutcome (step s) = s.timerPath.step := by
  have hturn : s.timerPath.turns.headD .sequencer = s.nextTurn := rfl
  unfold TimerPath.step
  rw [hturn]
  rcases step_cases s with ⟨hturn, e⟩ | ⟨hturn, e⟩ | ⟨hturn, e⟩ | ⟨hturn, e⟩ <;> rw [e, hturn]
  · exact timerPathOutcome_sequencerStep s.takeTurn
  · exact congrArg _ s.takeTurn.timerPath_tick
  · exact congrArg _ s.takeTurn.timerPath_deliver
  · exact congrArg _ s.takeTurn.timerPath_resetEvent

end

/-- Settles O60: the outcome of a step, seen on the path, is a function of the path. -/
theorem timerPathIgnoresPriorities : Obligations.TimerPathIgnoresPriorities := by
  unfold Obligations.TimerPathIgnoresPriorities
  intro s s' hpath
  have hsame : timerPathOutcome (step s) = timerPathOutcome (step s') := by
    rw [timerPathOutcome_step, timerPathOutcome_step, hpath]
  cases hs : step s with
  | fault r => cases r
  | next t =>
    cases hs' : step s' with
    | fault r => cases r
    | next t' =>
      rw [hs, hs'] at hsame
      exact Host.Outcome.next.inj hsame
    | refused r =>
      rw [hs, hs'] at hsame
      cases hsame
  | refused r =>
    cases hs' : step s' with
    | fault r => cases r
    | next t' =>
      rw [hs, hs'] at hsame
      cases hsame
    | refused r' =>
      rw [hs, hs'] at hsame
      exact Host.Outcome.refused.inj hsame

end Sys2Proof.Machine
end

section
/-! PROOFS. Reset and hazards (70_reset_and_hazards.md): expiries that coalesce (rule R120), the mask `GIE` after `TINIT`
(rule R116), and reset (rule R107). -/

namespace Sys2Proof.Machine

/-! ### Expiries before a delivery -/

/-- Count events change neither the mask nor the callback, and emit nothing (rule R95). -/
theorem State.iterate_tick_frame (s : State) (k : Nat) :
    (State.tick^[k] s).gie = s.gie ∧ (State.tick^[k] s).callback = s.callback ∧ (State.tick^[k] s).out = s.out := by
  induction k with
  | zero => exact ⟨rfl, rfl, rfl⟩
  | succ k ih =>
    rw [Function.iterate_succ_apply', State.tick_eq]
    exact ih

/-- No count event clears the pending bit (rule R120). -/
theorem State.iterate_tick_keeps_stPend {s : State} (h : s.stPend = true) (k : Nat) :
    (State.tick^[k] s).stPend = true := by
  induction k with
  | zero => exact h
  | succ k ih => rw [Function.iterate_succ_apply', State.tick_eq, ih, Bool.true_or]

/-- Settles O47: the first delivery finds the exception pending, the mask and the callback as they were, and leaves
nothing pending for the second. -/
theorem expiriesCoalesce : Obligations.ExpiriesCoalesce := by
  unfold Obligations.ExpiriesCoalesce
  intro s k hpend hgie hcallback
  obtain ⟨hgie', hcallback', hout⟩ := s.iterate_tick_frame k
  have hpend' := State.iterate_tick_keeps_stPend hpend k
  have hfirst := State.deliver_of_registered hpend' (hgie'.trans hgie) (hcallback' ▸ hcallback)
  have hsecond : (State.tick^[k] s).deliver.deliver = (State.tick^[k] s).deliver :=
    State.deliver_of_disabled (.inl (congrArg State.stPend hfirst))
  rw [hsecond, hfirst, hout, hcallback']
  exact ⟨hpend', rfl, rfl⟩

/-! ### The global mask and the timer commands -/

/-- Settles O30: the state a `TINIT` arms to has `GIE` set, and `TDEINIT` writes the timer registers only. -/
theorem tinitUnmasksGlobally : Obligations.TinitUnmasksGlobally := by
  unfold Obligations.TinitUnmasksGlobally
  intro dur s hlow hhigh
  obtain ⟨-, harms, -⟩ := tinitArmsPeriodicTimer dur s
  obtain ⟨n, -, hnext⟩ := harms hlow hhigh
  obtain ⟨-, -, hdeinit⟩ := tdeinitZeroesTimer
  exact ⟨_, _, hnext, rfl, hdeinit _, rfl⟩

/-! ### Reset -/

/-- Settles O58: the step is a reset, on the state with the turn taken. -/
theorem resetLeavesPowerOnState : Obligations.ResetLeavesPowerOnState := by
  unfold Obligations.ResetLeavesPowerOnState
  exact fun s hturn => step_of_nextTurn hturn

end Sys2Proof.Machine
end
